-- ==== Sys2Proof/Word.lean ====
section
/-! DEFINITION. The bit-vector types of the engine: the values the spec treats as bits (`00_scope.md` R4, R6). -/

namespace Sys2Proof

/-- A scalar register, a table entry or a command word: `REGBITS = CRCBITS = 32` (R4). -/
abbrev Word := BitVec 32

/-- A buffer byte (`10_state.md` R20). -/
abbrev Byte := BitVec 8

/-- A byte offset inside the engine's 4 MiB window of the host's address space (`20_memory.md` R41). -/
abbrev Offset := BitVec 22

/-- The key registers `N` and `E`: `KEYBITS = 2040` (R4, `10_state.md` R22). -/
abbrev KeyBits := BitVec 2040

/-- The key registers `P`, `Q`, `DP`, `DQ`, `QINV`: `HALFBITS = 1024` (R4, `10_state.md` R22). -/
abbrev HalfBits := BitVec 1024

end Sys2Proof
end

