-- ==== Sys2Proof/Syntax.lean ====
section
/-! DEFINITION. The commands of the engine, one constructor per row of `spec/opcode_table.json` (`30_encoding.md` R63). -/

namespace Sys2Proof

/-- The command set `CRCRSA-1`. A command has no register or address fields: its operands are fixed registers (R61). -/
inductive Instr where
  /-- `NOP` (`42_system.md` R130). -/
  | nop
  /-- `GETCRC` (`40_crc.md` R83). -/
  | getcrc
  /-- `CHECKCRC` (`40_crc.md` R84); `d` is the one-bit immediate `D`: compare with 0 instead of `CRC_EXP` (R62). -/
  | checkcrc (d : Bool)
  /-- `RSAENC` (`41_rsa.md` R110). -/
  | rsaenc
  /-- `RSADEC` (`41_rsa.md` R111). -/
  | rsadec
  deriving DecidableEq, Repr

end Sys2Proof
end

