-- ==== Sys2Proof/Decode.lean ====
section
/-! DEFINITION. Decoding and encoding of the one command format `C` (`30_encoding.md` R60 to R64, R69). -/

namespace Sys2Proof

/-- Why a word is illegal (`30_encoding.md` R64 lists these three). Each is the engine's ILLEGAL_CMD when dispatched. -/
inductive DecodeError where
  /-- A bit of `ZERO` (31:9) is set. -/
  | zeroFieldNotZero
  /-- `D = 1` with an `OP` other than CHECKCRC's. -/
  | defaultFlagNotAllowed
  /-- An `OP` other than `0x00 0x01 0x02 0x10 0x11`. -/
  | reservedOpcode
  deriving DecidableEq, Repr

/-- Field `OP`, bits 7:0 (R61). -/
def opField (w : Word) : Byte := w.extractLsb' 0 8

/-- Field `D`, bit 8 (R61, R62). -/
def dField (w : Word) : Bool := w.getLsbD 8

/-- Field `ZERO`, bits 31:9 (R61). -/
def zeroField (w : Word) : BitVec 23 := w.extractLsb' 9 23

/-- The total decode function, in the order of R69. -/
def decode (w : Word) : Except DecodeError Instr :=
  if zeroField w ≠ 0 then .error .zeroFieldNotZero
  else if opField w = 0x02#8 then .ok (.checkcrc (dField w))
  else if dField w = true then .error .defaultFlagNotAllowed
  else if opField w = 0x00#8 then .ok .nop
  else if opField w = 0x01#8 then .ok .getcrc
  else if opField w = 0x10#8 then .ok .rsaenc
  else if opField w = 0x11#8 then .ok .rsadec
  else .error .reservedOpcode

/-- Format `C` put together from its fields, `ZERO` being 0 (R61). -/
def formatC (d : Bool) (op : Byte) : Word := 0#23 ++ BitVec.ofBool d ++ op

/-- The word of a command (R63). -/
def encode : Instr → Word
  | .nop => formatC false 0x00#8
  | .getcrc => formatC false 0x01#8
  | .checkcrc d => formatC d 0x02#8
  | .rsaenc => formatC false 0x10#8
  | .rsadec => formatC false 0x11#8

/-- Column `match` of the opcode map (R63). -/
def rowMatch : Instr → Word
  | .nop => 0x00000000#32
  | .getcrc => 0x00000001#32
  | .checkcrc _ => 0x00000002#32
  | .rsaenc => 0x00000010#32
  | .rsadec => 0x00000011#32

/-- Column `mask` of the opcode map (R63): bit 8 is free in CHECKCRC's row only. -/
def rowMask : Instr → Word
  | .nop => 0xFFFFFFFF#32
  | .getcrc => 0xFFFFFFFF#32
  | .checkcrc _ => 0xFFFFFEFF#32
  | .rsaenc => 0xFFFFFFFF#32
  | .rsadec => 0xFFFFFFFF#32

/-- The command the decoder reads from a table row's bits. A command is one 32-bit number, the data of one host write, with no
byte order of its own (R60, `20_memory.md` R47). -/
def decodeTableWord (nbits w : Nat) : Option Instr :=
  match decode (BitVec.ofNat 32 (w % 2 ^ nbits)) with
  | .ok i => some i
  | .error _ => none

end Sys2Proof
end

