-- ==== Sys2Proof/Config.lean ====
section
/-! DEFINITION. What an instance of the engine fixes (`BUFLEN`) and the values the spec leaves open (bytes past the end of the
buffer, bytes of the buffer after reset). Every one is a constant without a body: no proof can see its value. -/

namespace Sys2Proof

/-- The largest legal `BUFLEN`, 2^21 (`00_scope.md` R4, R5). -/
def Config.maxBufLen : Nat := 2097152

/-- The free choice behind `Config.bufLen`. DESIGN CHOICE, safe (entry 3). -/
opaque Config.bufLenSeed : Nat

/-- `BUFLEN` of the instance that `State.reset` describes: OPEN in the spec (R4, D6, U16), so any of 1 to 2097152 and no
particular one. Every rule is modelled over the state's own `bufLen`, so for every legal `BUFLEN` (R5). -/
def Config.bufLen : Nat := Config.maxBufLen - Config.bufLenSeed % Config.maxBufLen

/-- `any8()` (`00_scope.md` R7, U1): the byte read at a buffer index at or beyond `BUFLEN`. The first argument is the serial
number of the draw (`State.draws`), the second the index: no command reads one index twice, so every evaluation has a value of
its own (`20_memory.md` R44). DESIGN CHOICE, safe (entry 4). -/
opaque Config.anyByte : Nat → Nat → Byte

/-- The unspecified content of the buffer after a reset (`10_state.md` R26, U2): one byte for each reset and index, kept until
written. DESIGN CHOICE, safe (entry 5). -/
opaque Config.resetByte : Nat → Nat → Byte

end Sys2Proof
end

