-- ==== Sys2Proof/Machine/Bus.lean ====
section
/-! DEFINITION. The host interface as the bus shows it: register names, the address map (`20_memory.md` R41), the host actions
(`30_encoding.md` R67) and which accesses get the bus's error response (R42, R43, R56). -/

namespace Sys2Proof.Machine

/-- The ten scalar register addresses (`10_state.md` R11). -/
inductive ScalarReg where
  | cmd | status | cause | einfo | bytePos | crcOff | crcLen | crcExp | crcRes | rlen
  deriving DecidableEq, Repr

/-- The seven key registers (`10_state.md` R22). -/
inductive KeyReg where
  | n | e | p | q | dp | dq | qinv
  deriving DecidableEq, Repr

/-- A 32-bit word of the register space: a scalar register or word `j` of a key register's window (`10_state.md` R23). -/
inductive WordTarget where
  | scalar (r : ScalarReg)
  | keyWord (k : KeyReg) (j : Nat)
  deriving DecidableEq, Repr

/-- One input of the engine: a host access on the bus, by its width and offset, or the platform's reset. -/
inductive HostAction where
  /-- A 32-bit read (`rd`). -/
  | rd32 (off : Offset)
  /-- A 32-bit write (`wr`, `cmd`, `clrerr`). -/
  | wr32 (off : Offset) (v : Word)
  /-- An 8-bit read (`rdb`). -/
  | rd8 (off : Offset)
  /-- An 8-bit write (`wrb`). -/
  | wr8 (off : Offset) (b : Byte)
  /-- A read or write of any width (in bits) other than 8 and 32 (R56). -/
  | otherWidth (bits : Nat) (off : Offset)
  /-- The platform's reset input (`70_reset_and_hazards.md` R160). -/
  | reset
  deriving DecidableEq, Repr

/-- Why the bus answers with its error response (R56). -/
inductive BusError where
  | reserved | wrongWidth | misaligned
  deriving DecidableEq, Repr

/-- The offsets the map marks reserved (R41). -/
def isReserved (off : Offset) : Bool :=
  (0x28 ≤ off.toNat && off.toNat < 0x100) || (0x580 ≤ off.toNat && off.toNat < 0x200000)

/-- Offset of the buffer window (R41). -/
def bufferBase : Nat := 0x200000

/-- The scalar registers by word index, offset divided by 4 (R41). -/
def scalarAt : Nat → Except BusError WordTarget
  | 0 => .ok (.scalar .cmd)
  | 1 => .ok (.scalar .status)
  | 2 => .ok (.scalar .cause)
  | 3 => .ok (.scalar .einfo)
  | 4 => .ok (.scalar .bytePos)
  | 5 => .ok (.scalar .crcOff)
  | 6 => .ok (.scalar .crcLen)
  | 7 => .ok (.scalar .crcExp)
  | 8 => .ok (.scalar .crcRes)
  | 9 => .ok (.scalar .rlen)
  | _ => .error .reserved

/-- The key windows by offset, from `0x100` up (R41). -/
def keyWordAt (o : Nat) : Except BusError WordTarget :=
  if o < 0x200 then .ok (.keyWord .n ((o - 0x100) / 4))
  else if o < 0x300 then .ok (.keyWord .e ((o - 0x200) / 4))
  else if o < 0x380 then .ok (.keyWord .p ((o - 0x300) / 4))
  else if o < 0x400 then .ok (.keyWord .q ((o - 0x380) / 4))
  else if o < 0x480 then .ok (.keyWord .dp ((o - 0x400) / 4))
  else if o < 0x500 then .ok (.keyWord .dq ((o - 0x480) / 4))
  else if o < 0x580 then .ok (.keyWord .qinv ((o - 0x500) / 4))
  else .error .reserved

/-- The word of the register space at an offset that is a multiple of 4, from the map of R41. -/
def wordAt (o : Nat) : Except BusError WordTarget :=
  if o < 0x100 then scalarAt (o / 4) else keyWordAt o

/-- A 32-bit access: the register space at a multiple of 4 (R42); anything else is a bus error (R56). Which error is named when
several apply is the model's order (entry 6). -/
def wordTarget (off : Offset) : Except BusError WordTarget :=
  if isReserved off then .error .reserved
  else if bufferBase ≤ off.toNat then .error .wrongWidth
  else if off.toNat % 4 ≠ 0 then .error .misaligned
  else wordAt off.toNat

/-- An 8-bit access: the buffer window, at the index the offset gives (R43); anything else is a bus error (R56). -/
def byteTarget (off : Offset) : Except BusError Nat :=
  if isReserved off then .error .reserved
  else if off.toNat < bufferBase then .error .wrongWidth
  else .ok (off.toNat - bufferBase)

/-- An access of any other width is always a bus error (R56). -/
def otherWidthError (off : Offset) : BusError :=
  if isReserved off then .reserved else .wrongWidth

/-- First offset of a key register's window (R41). -/
def keyBase : KeyReg → Nat
  | .n => 0x100 | .e => 0x200 | .p => 0x300 | .q => 0x380 | .dp => 0x400 | .dq => 0x480 | .qinv => 0x500

/-- Number of words of a key register's window (`10_state.md` R23). -/
def keyWords : KeyReg → Nat
  | .n => 64 | .e => 64 | .p => 32 | .q => 32 | .dp => 32 | .dq => 32 | .qinv => 32

/-- Offset of a scalar register (R41). -/
def scalarOffset : ScalarReg → Nat
  | .cmd => 0x00 | .status => 0x04 | .cause => 0x08 | .einfo => 0x0C | .bytePos => 0x10
  | .crcOff => 0x14 | .crcLen => 0x18 | .crcExp => 0x1C | .crcRes => 0x20 | .rlen => 0x24

/-- The bus offset of a word of the register space: the map of R41 read from names to offsets. -/
def offsetOf : WordTarget → Offset
  | .scalar r => BitVec.ofNat 22 (scalarOffset r)
  | .keyWord k j => BitVec.ofNat 22 (keyBase k + 4 * j)

/-- The bus offset of buffer byte `k` (R41). -/
def bufferOffset (k : Nat) : Offset := BitVec.ofNat 22 (bufferBase + k)

end Sys2Proof.Machine
end

