-- ==== Sys2Proof/Machine/State.lean ====
section
/-! DEFINITION. The state of the engine and of its host interface, the reasons a step stops, and the state after reset. -/

namespace Sys2Proof.Machine

/-- The buffer's written bytes as (index, byte) pairs (`10_state.md` R20). An index that is not listed has not been written
since the last reset and holds its unspecified value (R26, U2; entry 5). -/
abbrev Memory := List Host.Cell

/-- The canonical form: indexes strictly rising. No listed entry can equal what an unlisted index reads as, because that is
"not written", which is no byte. -/
def Memory.wf : Memory → Bool
  | [] => true
  | [_] => true
  | (a, _) :: (b, y) :: m => decide (a < b) && Memory.wf ((b, y) :: m)

/-- A value a host read returned (`42_system.md` R131, R133). -/
inductive ReadValue where
  | word (v : Word)
  | byte (b : Byte)
  deriving DecidableEq, Repr

/-- The engine's two faults (`60_exceptions.md` R140). They are not stops of the model: fault entry (R144) is a next state. -/
inductive EngineFault where
  | illegalCmd
  | arithFault
  deriving DecidableEq, Repr

/-- Stops that are the host's mistake at an address the spec says is unmapped. -/
inductive Fault where
  /-- Raised by a step whose host access goes to an offset the map marks reserved (`20_memory.md` R41, R56). The bus answers with
  an error response whose form is outside the spec, and R56 asks for no meaning. Safe: the hardware goes on unchanged. -/
  | reservedOffset (off : Offset)
  deriving DecidableEq, Repr

/-- Stops for want of a meaning. -/
inductive Refusal where
  /-- Raised by an arm of `exec` without a meaning; no arm is one. Safe. -/
  | notModelled (mnemonic : String)
  /-- Raised by a step whose host access is a 32-bit access to the register space at an offset that is not a multiple of 4
  (`20_memory.md` R56: bus error response, no state change, to be refused). Safe. -/
  | misaligned (off : Offset)
  /-- Raised by a step whose host access has another width than 32 bits in the register space, or 8 bits in the buffer window
  (R56). Safe. -/
  | wrongWidth (off : Offset)
  deriving DecidableEq, Repr

/-- The whole state (`10_state.md` R10): scalar registers, key registers, buffer; then the model's own fields. -/
structure State where
  /-- `STATUS`: bit 0 `ERR`, bit 1 `MATCH`, others reserved (R14). -/
  status : Word
  /-- `CAUSE` (R15). -/
  cause : Word
  /-- `EINFO` (R16). -/
  einfo : Word
  /-- `BYTEPOS` (R17). -/
  bytePos : Word
  /-- `CRC_OFF` (R18). -/
  crcOff : Word
  /-- `CRC_LEN` (R18). -/
  crcLen : Word
  /-- `CRC_EXP` (R19). -/
  crcExp : Word
  /-- `CRC_RES` (R19). -/
  crcRes : Word
  /-- `RLEN` (R21). -/
  rlen : Word
  /-- `N` (R22). -/
  n : KeyBits
  /-- `E` (R22). -/
  e : KeyBits
  /-- `P` (R22). -/
  p : HalfBits
  /-- `Q` (R22). -/
  q : HalfBits
  /-- `DP` (R22). -/
  dp : HalfBits
  /-- `DQ` (R22). -/
  dq : HalfBits
  /-- `QINV` (R22). -/
  qinv : HalfBits
  /-- `BUFLEN`, fixed for the life of an instance (`00_scope.md` R5; entry 3). -/
  bufLen : Nat
  /-- `BUF`: the bytes written since reset (R20; entry 5). -/
  buf : Memory
  /-- The model's own: the host actions still to come (R174; entry 1). -/
  inbox : List HostAction
  /-- The model's own: the values host reads have returned, oldest first (entry 2). -/
  reads : List ReadValue
  /-- The model's own: serial number of the next draw of free bytes past the end of the buffer (entry 4). -/
  draws : Nat
  /-- The model's own: number of resets so far, so that each leaves the buffer freshly unspecified (entry 5). -/
  epoch : Nat
  deriving DecidableEq, Repr

/-- A key register with every word 0 (R26), written as its number so that it is read back without computing `2 ^ w`. -/
def zeroKey {w : Nat} : BitVec w := BitVec.ofNatLT 0 (Nat.two_pow_pos w)

/-- The reset values of R26 for an instance with the given `BUFLEN`; the model's own fields start empty or at 0 (DESIGN CHOICE,
entries 1, 2, 4, 5). -/
def State.resetWith (bufLen : Nat) : State where
  status := 0
  cause := 0
  einfo := 0
  bytePos := 0
  crcOff := 0
  crcLen := 0
  crcExp := 0
  crcRes := 0
  rlen := 0
  n := zeroKey
  e := zeroKey
  p := zeroKey
  q := zeroKey
  dp := zeroKey
  dq := zeroKey
  qinv := zeroKey
  bufLen := bufLen
  buf := []
  inbox := []
  reads := []
  draws := 0
  epoch := 0

/-- The machine right after reset (R26, `70_reset_and_hazards.md` R160), for the instance's `BUFLEN`, whichever it is. -/
def State.reset : State := State.resetWith Config.bufLen

end Sys2Proof.Machine
end

