-- ==== Sys2Proof/Machine/Flags.lean ====
section
/-! DEFINITION. The two flags of `STATUS` (`10_state.md` R14): reading, setting and clearing them. -/

namespace Sys2Proof.Machine

/-- The mask of `STATUS.ERR`, bit 0. -/
def errMask : Word := 0x00000001#32

/-- The mask of `STATUS.MATCH`, bit 1. -/
def matchMask : Word := 0x00000002#32

/-- `STATUS.ERR`. -/
def State.err (s : State) : Bool := s.status.getLsbD 0

/-- `STATUS.MATCH`. -/
def State.matched (s : State) : Bool := s.status.getLsbD 1

/-- `STATUS.ERR <- 1`. -/
def State.setErr (s : State) : State := { s with status := s.status ||| errMask }

/-- `STATUS.ERR <- 0`. -/
def State.clearErr (s : State) : State := { s with status := s.status &&& ~~~errMask }

/-- `STATUS.MATCH <- b`. -/
def State.setMatch (b : Bool) (s : State) : State :=
  { s with status := (s.status &&& ~~~matchMask) ||| (if b then matchMask else 0) }

/-- What a read of `STATUS` gives: bits 31:2 are reserved and read as 0 (R14). -/
def State.statusRead (s : State) : Word := s.status &&& (errMask ||| matchMask)

/-- CHECKCRC's result, "equality of two 32-bit patterns" (`40_crc.md` R84). -/
def matchFlag (result expected : Word) : Bool := decide (result = expected)

end Sys2Proof.Machine
end

