-- ==== Sys2Proof/Machine/Ops.lean ====
section
/-! DEFINITION. The shared operations: the buffer (`20_memory.md` R44, R45), the register space (`42_system.md` R131, R132),
fault entry and return (`60_exceptions.md` R144, R147), reset (`70_reset_and_hazards.md` R160). -/

namespace Sys2Proof.Machine

/-- The byte written last at an index, if any was since reset. -/
def Memory.read (m : Memory) (a : Nat) : Option Byte :=
  match m with
  | [] => none
  | (b, v) :: rest => if a = b then some v else Memory.read rest a

/-- The memory after writing one byte, in canonical form. -/
def Memory.write (m : Memory) (a : Nat) (v : Byte) : Memory :=
  match m with
  | [] => [(a, v)]
  | (b, x) :: rest =>
    if a < b then (a, v) :: (b, x) :: rest
    else if a = b then (a, v) :: rest
    else (b, x) :: Memory.write rest a v

/-- A write at an index the buffer has; beyond it "nothing is written" (R45). -/
def Memory.writeIn (len : Nat) (m : Memory) (a : Nat) (v : Byte) : Memory :=
  if a < len then Memory.write m a v else m

/-- Writes in rising index order (`00_scope.md` R7, `20_memory.md` R48). -/
def Memory.writeSeqIn (len : Nat) (m : Memory) (a : Nat) : List Byte → Memory
  | [] => m
  | b :: bs => Memory.writeSeqIn len (Memory.writeIn len m a b) (a + 1) bs

/-- The content of an index inside the buffer: the byte last written, or the unspecified one the reset left (R26, U2). -/
def State.bufByte (s : State) (a : Nat) : Byte := (Memory.read s.buf a).getD (Config.resetByte s.epoch a)

/-- `MemRead(addr, 1)` (R44): `BUF[addr]`, or a free byte at or beyond `BUFLEN`. -/
def State.memRead (s : State) (a : Nat) : Byte :=
  if a < s.bufLen then s.bufByte a else Config.anyByte s.draws a

/-- `MemReadSeq(addr, n)` (`00_scope.md` R7). -/
def State.memReadSeq (s : State) (a : Nat) : Nat → List Byte
  | 0 => []
  | n + 1 => s.memRead a :: s.memReadSeq (a + 1) n

/-- `MemWrite(addr, 1, v)` (R45). -/
def State.memWrite (s : State) (a : Nat) (v : Byte) : State :=
  { s with buf := Memory.writeIn s.bufLen s.buf a v }

/-- `MemWriteSeq(addr, s)` (`00_scope.md` R7). -/
def State.memWriteSeq (s : State) (a : Nat) (bs : List Byte) : State :=
  { s with buf := Memory.writeSeqIn s.bufLen s.buf a bs }

/-- The free bytes drawn so far are used up: the next action's are fresh ones (R44, entry 4). -/
def State.nextDraw (s : State) : State := { s with draws := s.draws + 1 }

/-- Word `j` of a key register's window: bits `32j+31 : 32j`, zeros where the register has none (`10_state.md` R23). -/
def windowRead {w : Nat} (v : BitVec w) (j : Nat) : Word := v.extractLsb' (32 * j) 32

/-- The register after a write of word `j`: that word only, and bits the register does not have are ignored (R23). -/
def windowWrite {w : Nat} (v : BitVec w) (j : Nat) (x : Word) : BitVec w :=
  (v &&& ~~~((0xFFFFFFFF#32).setWidth w <<< (32 * j))) ||| (x.setWidth w <<< (32 * j))

/-- The host's view of word `j` of a key register (R131). -/
def State.readKeyWord (s : State) (k : KeyReg) (j : Nat) : Word :=
  match k with
  | .n => windowRead s.n j
  | .e => windowRead s.e j
  | .p => windowRead s.p j
  | .q => windowRead s.q j
  | .dp => windowRead s.dp j
  | .dq => windowRead s.dq j
  | .qinv => windowRead s.qinv j

/-- The host's write of word `j` of a key register (R132). -/
def State.writeKeyWord (s : State) (k : KeyReg) (j : Nat) (x : Word) : State :=
  match k with
  | .n => { s with n := windowWrite s.n j x }
  | .e => { s with e := windowWrite s.e j x }
  | .p => { s with p := windowWrite s.p j x }
  | .q => { s with q := windowWrite s.q j x }
  | .dp => { s with dp := windowWrite s.dp j x }
  | .dq => { s with dq := windowWrite s.dq j x }
  | .qinv => { s with qinv := windowWrite s.qinv j x }

/-- The whole natural-number value of a key register (R22). -/
def State.keyValue (s : State) : KeyReg → Nat
  | .n => s.n.toNat
  | .e => s.e.toNat
  | .p => s.p.toNat
  | .q => s.q.toNat
  | .dp => s.dp.toNat
  | .dq => s.dq.toNat
  | .qinv => s.qinv.toNat

/-- The host's view of a scalar register (R131): `CMD` reads as 0, reserved bits of `STATUS` and `CAUSE` as 0 (R13 to R15). -/
def State.readScalar (s : State) : ScalarReg → Word
  | .cmd => 0
  | .status => s.statusRead
  | .cause => s.cause &&& 0x000000FF#32
  | .einfo => s.einfo
  | .bytePos => s.bytePos
  | .crcOff => s.crcOff
  | .crcLen => s.crcLen
  | .crcExp => s.crcExp
  | .crcRes => s.crcRes
  | .rlen => s.rlen

/-- `clrerr`, the return from a fault (R134, R147): bit 0 of the word written clears `ERR`; nothing else changes. -/
def State.writeStatus (s : State) (v : Word) : State := if v.getLsbD 0 then s.clearErr else s

/-- The host's write of a scalar register that only stores (R132); `CMD` issues a command instead and is not handled here, and a
write to a read-only register is ignored (R42). -/
def State.writeScalar (s : State) (r : ScalarReg) (v : Word) : State :=
  match r with
  | .cmd => s
  | .status => s.writeStatus v
  | .cause => s
  | .einfo => s
  | .bytePos => { s with bytePos := v }
  | .crcOff => { s with crcOff := v }
  | .crcLen => { s with crcLen := v }
  | .crcExp => { s with crcExp := v }
  | .crcRes => s
  | .rlen => s

/-- The host's view of a word of the register space. -/
def State.readTarget (s : State) : WordTarget → Word
  | .scalar r => s.readScalar r
  | .keyWord k j => s.readKeyWord k j

/-- The code a fault writes to `CAUSE` (`60_exceptions.md` R140). -/
def EngineFault.code : EngineFault → Word
  | .illegalCmd => 1
  | .arithFault => 2

/-- Fault entry, `raise F(w)` (R144): `ERR`, `CAUSE`, `EINFO`, and nothing else. Control goes nowhere. -/
def State.raise (s : State) (f : EngineFault) (w : Word) : State :=
  { s.setErr with cause := f.code, einfo := w }

/-- The platform's reset (R160): every register at its value of R26, the buffer freshly unspecified (U2, U17). The instance's
`BUFLEN` stays (`00_scope.md` R5), and so does what is not the engine's: the host's list, what it has read, the count of draws
(entry 8). -/
def State.afterReset (s : State) : State :=
  { State.resetWith s.bufLen with inbox := s.inbox, reads := s.reads, draws := s.draws, epoch := s.epoch + 1 }

end Sys2Proof.Machine
end

