-- ==== Sys2Proof/Machine/Operands.lean ====
section
/-! DEFINITION. The operand forms: a command's operands are whole named registers, the one-bit immediate `D`, and ranges of
buffer bytes whose bounds come from registers (`30_encoding.md` R61, R62). -/

namespace Sys2Proof.Machine

/-- CHECKCRC's expected value: 0 when `D = 1`, `CRC_EXP` when `D = 0` (R62, `40_crc.md` R84). -/
def State.expectedValue (s : State) (d : Bool) : Word := if d then 0 else s.crcExp

/-- The bytes `MemRead(i, 1)` for `off <= i < fin`, rising; none when `fin <= off` (`40_crc.md` R82). -/
def State.rangeBytes (s : State) (off fin : Nat) : List Byte := s.memReadSeq off (fin - off)

/-- RSAENC's plaintext: the first `BYTEPOS` bytes (`41_rsa.md` R110). -/
def State.plaintext (s : State) : List Byte := s.memReadSeq 0 s.bytePos.toNat

/-- RSADEC's length byte, at the cursor, and the ciphertext that follows it; indexes do not wrap (`41_rsa.md` R111). -/
def State.cipherLen (s : State) : Nat := (s.memRead s.bytePos.toNat).toNat

/-- RSADEC's ciphertext bytes (`41_rsa.md` R111). -/
def State.ciphertext (s : State) : List Byte := s.memReadSeq (s.bytePos.toNat + 1) s.cipherLen

end Sys2Proof.Machine
end

