-- ==== Sys2Proof/Machine/Crc.lean ====
section
/-! DEFINITION. The checksum unit: `TABLE`, `CrcRange` and the commands GETCRC and CHECKCRC (`40_crc.md`). -/

namespace Sys2Proof.Machine

/-- `POLY`, the reversed polynomial (`00_scope.md` R4). -/
def crcPoly : Word := 0xEDB88320#32

/-- `SEED`, the initial register (R4). -/
def crcSeed : Word := 0xFFFFFFFF#32

/-- One iteration of the table loop: the low bit is tested, the shift happens in both branches, the xor follows it (R80). -/
def tableShift (r : Word) : Word := if r.getLsbD 0 then (r >>> 1) ^^^ crcPoly else r >>> 1

/-- `r` after `k` iterations. -/
def tableLoop : Nat → Word → Word
  | 0, r => r
  | k + 1, r => tableLoop k (tableShift r)

/-- `TABLE[b]`: eight iterations from the byte value (R80). A constant of the engine, not state (`10_state.md` R24). -/
def tableEntry (b : Byte) : Word := tableLoop 8 (b.setWidth 32)

/-- One step of the checksum loop: the low byte of the register xor the buffer byte indexes the table, and the entry is xored
with the register shifted right by 8 (R82). -/
def crcStep (crc : Word) (b : Byte) : Word := (crc >>> 8) ^^^ tableEntry ((crc ^^^ b.setWidth 32).extractLsb' 0 8)

/-- The checksum of a byte sequence: seed, loop, bitwise complement (R82). -/
def crcBytes (bs : List Byte) : Word := ~~~(bs.foldl crcStep crcSeed)

/-- `CrcRange(off, fin)`: the second argument is an absolute, exclusive end index, not a count (R82, `90_conflicts.md` C1). -/
def State.crcRange (s : State) (off fin : Word) : Word := crcBytes (s.rangeBytes off.toNat fin.toNat)

/-- GETCRC (R83). -/
def execGetcrc (s : State) : Host.Outcome State Fault Refusal :=
  .next ({ s with crcRes := s.crcRange s.crcOff s.crcLen }).nextDraw

/-- CHECKCRC (R84): writes `CRC_RES` and, always, `STATUS.MATCH`. -/
def execCheckcrc (d : Bool) (s : State) : Host.Outcome State Fault Refusal :=
  .next ({ s with crcRes := s.crcRange s.crcOff s.crcLen }.setMatch
    (matchFlag (s.crcRange s.crcOff s.crcLen) (s.expectedValue d))).nextDraw

end Sys2Proof.Machine
end

