-- ==== Sys2Proof/Machine/BigNat.lean ====
section
/-! DEFINITION. The big-integer primitives of the cipher: `BytesToNat`, `NatToBytes`, `ModExp` and the CRT recombination
(`41_rsa.md` R100 to R104, R111). All values are exact integers (R103). -/

namespace Sys2Proof.Machine

/-- `BytesToNat(s)`: big-endian, unsigned; 0 for the empty sequence (R100). -/
def bytesToNat (bs : List Byte) : Nat := bs.foldl (fun a b => a * 256 + b.toNat) 0

/-- The number of bytes of `NatToBytes(v)`: the least `n >= 1` with `v < 256^n` (R101). -/
def byteLength (v : Nat) : Nat := v.log2 / 8 + 1

/-- `NatToBytes(v)`: byte `i` of `n` is `(v div 256^(n-1-i)) mod 256`; 0 is one zero byte (R101). -/
def natToBytes (v : Nat) : List Byte :=
  (List.range (byteLength v)).map fun i => BitVec.ofNat 8 (v / 256 ^ (byteLength v - 1 - i))

/-- Square and multiply, least significant exponent bit first; `fuel` bounds the bits of `e`. -/
def modExpLoop (m : Nat) : Nat → Nat → Nat → Nat → Nat
  | 0, _, _, acc => acc
  | fuel + 1, b, e, acc => modExpLoop m fuel (b * b % m) (e / 2) (if e % 2 = 1 then acc * b % m else acc)

/-- `ModExp(b, e, m)`, the value `(b^e) mod m` (R102). The method is not architecturally visible (R104; entry 12): this one can be
run on operands of any size the registers hold. -/
def modExp (b e m : Nat) : Nat := modExpLoop m (e.log2 + 1) (b % m) e (1 % m)

/-- `h = (qinv * (mP - mQ)) mod p`: an integer difference that may be negative, and the least non-negative residue (R103, R111,
`00_scope.md` R6). -/
def crtH (qinv mP mQ p : Nat) : Nat := (((qinv : Int) * ((mP : Int) - (mQ : Int))) % (p : Int)).toNat

/-- RSADEC's result `m = mQ + h * q` for ciphertext integer `c` (R111). -/
def crtDecrypt (c p q dp dq qinv : Nat) : Nat :=
  modExp c dq q + crtH qinv (modExp c dp p) (modExp c dq q) p * q

end Sys2Proof.Machine
end

