-- ==== Sys2Proof/Machine/Rsa.lean ====
section
/-! DEFINITION. The cipher unit: the commands RSAENC and RSADEC (`41_rsa.md` R110, R111). -/

namespace Sys2Proof.Machine

/-- RSAENC's ciphertext integer `c = ModExp(m, E, N)` (R110). -/
def State.encryptNat (s : State) : Nat := modExp (bytesToNat s.plaintext) s.e.toNat s.n.toNat

/-- RSADEC's plaintext integer `m` (R111). -/
def State.decryptNat (s : State) : Nat :=
  crtDecrypt (bytesToNat s.ciphertext) s.p.toNat s.q.toNat s.dp.toNat s.dq.toNat s.qinv.toNat

/-- RSAENC's rewriting of the buffer, cursor and `RLEN`: one length byte and the result at index 0. The result was computed from
the state before any write (R110, `20_memory.md` R49). -/
def State.putCiphertext (s : State) (out : List Byte) : State :=
  { (s.memWrite 0 (BitVec.ofNat 8 out.length)).memWriteSeq 1 out with
    bytePos := BitVec.ofNat 32 (1 + out.length), rlen := BitVec.ofNat 32 out.length }

/-- RSADEC's rewriting: the plaintext alone from index 0, no length byte, cursor at 0 (R111, `90_conflicts.md` C3). -/
def State.putPlaintext (s : State) (out : List Byte) : State :=
  { s.memWriteSeq 0 out with bytePos := 0, rlen := BitVec.ofNat 32 out.length }

/-- RSAENC (R110): ARITH_FAULT when `N = 0`, before anything is read (`60_exceptions.md` R142). The word recorded in `EINFO` is the
command's one encoding (entry 7). -/
def execRsaenc (s : State) : Host.Outcome State Fault Refusal :=
  if s.n.toNat = 0 then .next (s.raise .arithFault (encode .rsaenc))
  else .next (s.putCiphertext (natToBytes s.encryptNat)).nextDraw

/-- RSADEC (R111): ARITH_FAULT when `P = 0` or `Q = 0`, before anything is read (R142). -/
def execRsadec (s : State) : Host.Outcome State Fault Refusal :=
  if s.p.toNat = 0 ∨ s.q.toNat = 0 then .next (s.raise .arithFault (encode .rsadec))
  else .next (s.putPlaintext (natToBytes s.decryptNat)).nextDraw

end Sys2Proof.Machine
end

