-- ==== Sys2Proof/Machine/System.lean ====
section
/-! DEFINITION. The command NOP (`42_system.md` R130). -/

namespace Sys2Proof.Machine

/-- NOP: "No state changes at all" (R130). -/
def execNop (s : State) : Host.Outcome State Fault Refusal := .next s

end Sys2Proof.Machine
end

