-- ==== Sys2Proof/Machine/Dispatch.lean ====
section
/-! DEFINITION. The meaning of each command once it is dispatched, one arm per row of the opcode table. The error lock is tested
before, at command issue (`42_system.md` R135; entry 9). -/

namespace Sys2Proof.Machine

def exec (i : Instr) (s : State) : Host.Outcome State Fault Refusal :=
  match i with
  | .nop => Sys2Proof.Machine.execNop s
  | .getcrc => Sys2Proof.Machine.execGetcrc s
  | .checkcrc d => Sys2Proof.Machine.execCheckcrc d s
  | .rsaenc => Sys2Proof.Machine.execRsaenc s
  | .rsadec => Sys2Proof.Machine.execRsadec s

end Sys2Proof.Machine
end

