-- ==== Sys2Proof/Machine/Access.lean ====
section
/-! DEFINITION. The host actions: register reads and writes, buffer accesses, command issue and reset (`42_system.md` R131 to
R135, `20_memory.md` R42, R43, R56, `70_reset_and_hazards.md` R160). -/

namespace Sys2Proof.Machine

/-- Command issue (R135): dropped while `ERR = 1` (`60_exceptions.md` R146); else ILLEGAL_CMD for an illegal word (R141); else the
command, as one transition. -/
def State.issue (s : State) (w : Word) : Host.Outcome State Fault Refusal :=
  if s.err then .next s
  else
    match decode w with
    | .error _ => .next (s.raise .illegalCmd w)
    | .ok i => exec i s

/-- The value a host read returned joins the host's record (R131, R133). -/
def State.deliver (s : State) (v : ReadValue) : State := { s with reads := s.reads ++ [v] }

/-- The bus's error response (R56): the model gives the access no meaning (entry 6). -/
def busStop (e : BusError) (off : Offset) : Host.Outcome State Fault Refusal :=
  match e with
  | .reserved => .fault (.reservedOffset off)
  | .wrongWidth => .refused (.wrongWidth off)
  | .misaligned => .refused (.misaligned off)

/-- A host write to a word of the register space (R132). -/
def State.writeTarget (s : State) (t : WordTarget) (v : Word) : Host.Outcome State Fault Refusal :=
  match t with
  | .scalar .cmd => s.issue v
  | .scalar r => .next (s.writeScalar r v)
  | .keyWord k j => .next (s.writeKeyWord k j v)

/-- One host action. Register and buffer accesses are not held back by `ERR` (R132, R133). -/
def State.takeAction (s : State) (a : HostAction) : Host.Outcome State Fault Refusal :=
  match a with
  | .rd32 off =>
    match wordTarget off with
    | .error e => busStop e off
    | .ok t => .next (s.deliver (.word (s.readTarget t)))
  | .wr32 off v =>
    match wordTarget off with
    | .error e => busStop e off
    | .ok t => s.writeTarget t v
  | .rd8 off =>
    match byteTarget off with
    | .error e => busStop e off
    | .ok k => .next (s.deliver (.byte (s.memRead k))).nextDraw
  | .wr8 off b =>
    match byteTarget off with
    | .error e => busStop e off
    | .ok k => .next (s.memWrite k b)
  | .otherWidth _ off => busStop (otherWidthError off) off
  | .reset => .next s.afterReset

/-- The next host action is taken from the list; with none left the engine is idle and stays as it is (R174). -/
def State.takeNext (s : State) : Host.Outcome State Fault Refusal :=
  match s.inbox with
  | [] => .next s
  | a :: rest => ({ s with inbox := rest } : State).takeAction a

end Sys2Proof.Machine
end

