-- ==== Sys2Proof/Machine/Step.lean ====
section
/-! DEFINITION. One step: the next host action, run to its end as one atomic transition (`20_memory.md` R50). -/

namespace Sys2Proof.Machine

/-- The engine's step. It has no program counter: the next command is whatever word the host writes to `CMD` next
(`10_state.md` R12). -/
def step (s : State) : Host.Outcome State Fault Refusal := s.takeNext

/-- The command word placed as the host's next action, a write to `CMD` (R13, R60; entry 1). -/
def State.withFetchWord (s : State) (nbits w : Nat) : State :=
  { s with inbox := .wr32 (offsetOf (.scalar .cmd)) (BitVec.ofNat 32 (w % 2 ^ nbits)) :: s.inbox }

end Sys2Proof.Machine
end

