-- ==== Sys2Proof/WellFormed.lean ====
section
/-! DEFINITION. Which terms are well formed: commands (all of them) and host actions (those the bus does not answer with its
error response). -/

namespace Sys2Proof

/-- Every term of `Instr` has an encoding: the only field is the one-bit `D` of CHECKCRC, both of whose values are legal
(`30_encoding.md` R61, R62). -/
def Instr.wellFormed : Instr → Bool
  | .nop => true
  | .getcrc => true
  | .checkcrc _ => true
  | .rsaenc => true
  | .rsadec => true

/-- The host actions the spec gives a meaning: 32-bit aligned accesses to mapped register offsets, 8-bit accesses to the buffer
window, and reset (`20_memory.md` R42, R43, R56, `70_reset_and_hazards.md` R160). -/
def Machine.HostAction.wellFormed : Machine.HostAction → Bool
  | .rd32 off => (Machine.wordTarget off).isOk
  | .wr32 off _ => (Machine.wordTarget off).isOk
  | .rd8 off => (Machine.byteTarget off).isOk
  | .wr8 off _ => (Machine.byteTarget off).isOk
  | .otherWidth _ _ => false
  | .reset => true

end Sys2Proof
end

