-- ==== Sys2Proof/Safety.lean ====
section
/-! DEFINITION. What a safe run is, in the terms claims use: the invariant of the state, and which host actions keep the machine
going. -/

namespace Sys2Proof.Machine

/-- The fault record is one of the three the spec allows (`60_exceptions.md` R140): none (then `ERR` is 0 and `EINFO` is 0);
ILLEGAL_CMD with an illegal word; ARITH_FAULT with the word of a cipher command. -/
def State.faultRecordLegal (s : State) : Prop :=
  (s.cause = 0 ∧ s.einfo = 0 ∧ s.err = false) ∨
  (s.cause = 1 ∧ ∃ e, decode s.einfo = .error e) ∨
  (s.cause = 2 ∧ (s.einfo = 0x00000010#32 ∨ s.einfo = 0x00000011#32))

/-- The invariant of the engine. -/
structure State.Inv (s : State) : Prop where
  /-- `STATUS[31:2]` are never set (`10_state.md` R14). -/
  statusReserved : s.status >>> 2 = 0
  /-- `CAUSE` and `EINFO` hold a record the spec allows (R15, R16, R140). -/
  faultRecord : s.faultRecordLegal
  /-- `RLEN` is 0 after reset and 1 to 256 after a cipher command (R21). -/
  rlenBound : s.rlen.toNat ≤ 256
  /-- `BUFLEN` is legal (`00_scope.md` R4). -/
  bufLenLegal : 1 ≤ s.bufLen ∧ s.bufLen ≤ Config.maxBufLen
  /-- The buffer is in its canonical form. -/
  bufCanonical : s.buf.wf = true
  /-- The buffer has no implicit growth: every listed index is below `BUFLEN` (`20_memory.md` R45). -/
  bufInside : ∀ c ∈ s.buf, c.1 < s.bufLen

/-- The next host action, if any, is one the spec gives a meaning. -/
def State.nextWellFormed (s : State) : Bool :=
  match s.inbox with
  | [] => true
  | a :: _ => a.wellFormed

/-- The machine goes on. -/
def State.proceeds (s : State) : Prop := ∃ t, step s = .next t

end Sys2Proof.Machine
end

