-- ==== Sys2Proof/Certificates/Slice0/Obligations.lean ====
section
/-! DEFINITION. The statements for the provers. Each docstring names the rule of `spec/` it formalises. Where a statement says
`t = { s with f := t.f, … }`, it says that every field not listed is unchanged; `draws` is the model's own count of free bytes
(entry 4) and no statement says what it becomes. -/

open Sys2Proof Sys2Proof.Machine Sys2Proof.Reference

/-! ### Encoding -/

/-- A word decodes to a command exactly when it is that command's encoding (`30_encoding.md` R61, R63, R69). -/
def Obligations.DecodeEncodeExact : Prop :=
  (∀ i : Instr, i.wellFormed = true → decode (encode i) = .ok i) ∧
  (∀ (w : Word) (i : Instr), decode w = .ok i → i.wellFormed = true ∧ encode i = w)

/-- R63: a word is the command of a row exactly when its masked bits are the row's `match`; `D` is bit 8; every word other than
the six legal ones is illegal. -/
def Obligations.RowsByMatchAndMask : Prop := ∀ w : Word,
  (decode w = .ok .nop ↔ w &&& 0xFFFFFFFF#32 = 0x00000000#32) ∧
  (decode w = .ok .getcrc ↔ w &&& 0xFFFFFFFF#32 = 0x00000001#32) ∧
  ((∃ d, decode w = .ok (.checkcrc d)) ↔ w &&& 0xFFFFFEFF#32 = 0x00000002#32) ∧
  (∀ d, decode w = .ok (.checkcrc d) → d = w.getLsbD 8) ∧
  (decode w = .ok .rsaenc ↔ w &&& 0xFFFFFFFF#32 = 0x00000010#32) ∧
  (decode w = .ok .rsadec ↔ w &&& 0xFFFFFFFF#32 = 0x00000011#32) ∧
  ((∃ i, decode w = .ok i) ↔
    w ∈ [0x00000000#32, 0x00000001#32, 0x00000002#32, 0x00000102#32, 0x00000010#32, 0x00000011#32])

/-- The decode table of `95_test_vectors.md` section 4, word by word. -/
def Obligations.SpecWordsDecode : Prop :=
  decode 0x00000000#32 = .ok .nop ∧ decode 0x00000001#32 = .ok .getcrc ∧
  decode 0x00000002#32 = .ok (.checkcrc false) ∧ decode 0x00000102#32 = .ok (.checkcrc true) ∧
  decode 0x00000010#32 = .ok .rsaenc ∧ decode 0x00000011#32 = .ok .rsadec ∧
  (∀ w ∈ [0x00000003#32, 0x00000012#32, 0x000000FF#32, 0x00000100#32, 0x00000101#32, 0x00000110#32, 0x00000202#32,
    0x80000001#32, 0xFFFFFFFF#32], ∀ i, decode w ≠ .ok i)

/-! ### Step and command issue -/

/-- When `ERR = 0` and the host's next action writes a command's word to `CMD`, the step is that command, run on the state without
that action (`42_system.md` R135, `20_memory.md` R50); and a word placed by `withFetchWord` is that next action. -/
def Obligations.StepRunsDecodedCommand : Prop :=
  (∀ (s : State) (w : Word) (rest : List HostAction) (i : Instr),
    s.inbox = .wr32 0#22 w :: rest → s.err = false → decode w = .ok i →
    step s = exec i { s with inbox := rest }) ∧
  (∀ (s : State) (nbits w : Nat) (i : Instr),
    s.err = false → decodeTableWord nbits w = some i → step (s.withFetchWord nbits w) = exec i s)

/-- R145: error lock, then ILLEGAL_CMD, then ARITH_FAULT, then completion. -/
def Obligations.CommandIssuePriority : Prop :=
  ∀ (s : State) (w : Word) (rest : List HostAction), s.inbox = .wr32 0#22 w :: rest →
    (s.err = true → step s = .next { s with inbox := rest }) ∧
    (s.err = false → (∀ i, decode w ≠ .ok i) →
      step s = .next { s with inbox := rest, status := s.status ||| 0x00000001#32, cause := 0x00000001#32, einfo := w }) ∧
    (s.err = false →
      (decode w = .ok .rsaenc ∧ s.n.toNat = 0 ∨ decode w = .ok .rsadec ∧ (s.p.toNat = 0 ∨ s.q.toNat = 0)) →
      step s = .next { s with inbox := rest, status := s.status ||| 0x00000001#32, cause := 0x00000002#32, einfo := w }) ∧
    (s.err = false → (∃ i, decode w = .ok i) →
      ¬(decode w = .ok .rsaenc ∧ s.n.toNat = 0 ∨ decode w = .ok .rsadec ∧ (s.p.toNat = 0 ∨ s.q.toNat = 0)) →
      ∃ t, step s = .next t ∧ t.err = false ∧ t.cause = s.cause ∧ t.einfo = s.einfo)

/-- R64: every illegal word, by its fields, raises ILLEGAL_CMD when dispatched and has no other effect. -/
def Obligations.IllegalWordRaisesIllegalCmd : Prop :=
  ∀ (s : State) (w : Word) (rest : List HostAction), s.inbox = .wr32 0#22 w :: rest → s.err = false →
    (w >>> 9 ≠ 0 ∨ (w.getLsbD 8 = true ∧ w &&& 0xFF#32 ≠ 0x02#32) ∨
      w &&& 0xFF#32 ∉ [0x00#32, 0x01#32, 0x02#32, 0x10#32, 0x11#32]) →
    step s = .next { s with inbox := rest, status := s.status ||| 0x00000001#32, cause := 0x00000001#32, einfo := w }

/-- With no host action left the engine is idle and stays as it is (`70_reset_and_hazards.md` R174). That the list is the input is
the model's choice (entry 1). -/
def Obligations.IdleEngineStays : Prop := ∀ s : State, s.inbox = [] → step s = .next s

/-- One action is one step: a step that goes on takes exactly the first action off the host's list, and it leaves `BUFLEN` alone
(`20_memory.md` R50, `00_scope.md` R5; the list is entry 1's). -/
def Obligations.OneActionPerStep : Prop :=
  ∀ s t : State, step s = .next t → t.inbox = s.inbox.tail ∧ t.bufLen = s.bufLen

/-- Every list of well-formed host actions runs to its end in as many steps as it has actions ("no schedule, fairness or fuel is
involved", R174; every command ends, R170). -/
def Obligations.WellFormedRunsReachTheirEnd : Prop :=
  ∀ s : State, (∀ a ∈ s.inbox, a.wellFormed = true) →
    ∃ t : State, Host.Core.run Sys2Proof.core s.inbox.length s = .next t ∧ t.inbox = [] ∧ t.bufLen = s.bufLen

/-! ### The commands -/

/-- R130: NOP's word, its effect, and that it is the same whether or not `ERR` is set. -/
def Obligations.NopChangesNothing : Prop :=
  decode 0x00000000#32 = .ok .nop ∧
  (∀ s : State, exec .nop s = .next s) ∧
  (∀ (s : State) (rest : List HostAction), s.inbox = .wr32 0#22 0x00000000#32 :: rest →
    step s = .next { s with inbox := rest })

/-- R81: the table's 256 entries are the printed ones. -/
def Obligations.TableIsThePrintedTable : Prop :=
  printedTable.length = 256 ∧ ∀ k < 256, printedTable[k]? = some (tableEntry (BitVec.ofNat 8 k))

/-- One table-driven step is eight bit-serial steps of the reversed polynomial (`40_crc.md` R80, R82, R85). -/
def Obligations.TableStepIsEightSerialSteps : Prop :=
  ∀ (crc : Word) (b : Byte), crcStep crc b = serialByte crc b

/-- `CrcRange(off, fin)` is the bit-serial CRC-32 of the bytes read at the indexes `off <= i < fin`, in rising order; `fin` is an
end index, not a count (`40_crc.md` R82, R85, `90_conflicts.md` C1). -/
def Obligations.CrcRangeIsSerialCrc32 : Prop :=
  ∀ (s : State) (off fin : Word),
    s.crcRange off fin =
      serialCrc32 ((List.range (fin.toNat - off.toNat)).map fun i => s.memRead (off.toNat + i))

/-- GETCRC (`40_crc.md` R83): its word runs it unless `ERR` is set, and then changes nothing; it completes from every state, with
this result and this frame. -/
def Obligations.GetcrcResult : Prop :=
  (∀ (s : State) (rest : List HostAction), s.inbox = .wr32 0#22 0x00000001#32 :: rest →
    step s = if s.err then .next { s with inbox := rest } else exec .getcrc { s with inbox := rest }) ∧
  (∀ s : State, ∃ t : State, exec .getcrc s = .next t ∧
    t.crcRes = serialCrc32
      ((List.range (s.crcLen.toNat - s.crcOff.toNat)).map fun i => s.memRead (s.crcOff.toNat + i)) ∧
    t = { s with crcRes := t.crcRes, draws := t.draws } ∧
    (∀ a, t.bufByte a = s.bufByte a))

/-- CHECKCRC (`40_crc.md` R84, `30_encoding.md` R62): its two words run it unless `ERR` is set; it completes from every state, with
either `D`: result, `MATCH`, the other bits of `STATUS`, and its frame. -/
def Obligations.CheckcrcResult : Prop :=
  (∀ (d : Bool) (s : State) (rest : List HostAction),
    s.inbox = .wr32 0#22 (if d then 0x00000102#32 else 0x00000002#32) :: rest →
    step s = if s.err then .next { s with inbox := rest } else exec (.checkcrc d) { s with inbox := rest }) ∧
  (∀ (d : Bool) (s : State), ∃ t : State, exec (.checkcrc d) s = .next t ∧
    t.crcRes = serialCrc32
      ((List.range (s.crcLen.toNat - s.crcOff.toNat)).map fun i => s.memRead (s.crcOff.toNat + i)) ∧
    t.status.getLsbD 1 = decide (t.crcRes = if d then 0#32 else s.crcExp) ∧
    (∀ k, k ≠ 1 → t.status.getLsbD k = s.status.getLsbD k) ∧
    t = { s with crcRes := t.crcRes, status := t.status, draws := t.draws } ∧
    (∀ a, t.bufByte a = s.bufByte a))

/-- An empty range, `CRC_LEN <= CRC_OFF`, gives checksum 0 for both commands; `CHECKCRC.D` then matches, and CHECKCRC matches
exactly when `CRC_EXP = 0` (corner cases of `40_crc.md` R83, R84). -/
def Obligations.EmptyRangeChecksumIsZero : Prop :=
  ∀ s : State, s.crcLen.toNat ≤ s.crcOff.toNat →
    (∃ t, exec .getcrc s = .next t ∧ t.crcRes = 0) ∧
    (∃ t, exec (.checkcrc true) s = .next t ∧ t.crcRes = 0 ∧ t.matched = true) ∧
    (∃ t, exec (.checkcrc false) s = .next t ∧ t.crcRes = 0 ∧ t.matched = decide (s.crcExp = 0))

/-- `CrcRange` is a pure function of its bounds and the bytes of its range: when the range lies in the buffer, two engines that
agree on those bytes give the same checksum, whatever else they hold (`40_crc.md` R85). -/
def Obligations.ChecksumDependsOnItsRangeOnly : Prop :=
  ∀ (s t s' t' : State), s.crcOff = t.crcOff → s.crcLen = t.crcLen → s.crcLen.toNat ≤ s.bufLen → s.crcLen.toNat ≤ t.bufLen →
    (∀ i, s.crcOff.toNat ≤ i → i < s.crcLen.toNat → s.bufByte i = t.bufByte i) →
    exec .getcrc s = .next s' → exec .getcrc t = .next t' → s'.crcRes = t'.crcRes

/-- RSAENC (`41_rsa.md` R110): its word runs it unless `ERR` is set; with `N = 0` it faults and nothing else changes; otherwise it
completes: the length byte and the ciphertext in the buffer, every other byte, the cursor, `RLEN`, and its frame. Bytes at or
beyond `BUFLEN` are dropped (`20_memory.md` R45, R49, R55). -/
def Obligations.RsaencResult : Prop :=
  (∀ (s : State) (rest : List HostAction), s.inbox = .wr32 0#22 0x00000010#32 :: rest →
    step s = if s.err then .next { s with inbox := rest } else exec .rsaenc { s with inbox := rest }) ∧
  (∀ s : State, s.n.toNat = 0 → exec .rsaenc s =
    .next { s with status := s.status ||| 0x00000001#32, cause := 0x00000002#32, einfo := 0x00000010#32 }) ∧
  (∀ s : State, s.n.toNat ≠ 0 →
    ∃ t : State, exec .rsaenc s = .next t ∧
      (let out := natToBytes (bytesToNat (s.memReadSeq 0 s.bytePos.toNat) ^ s.e.toNat % s.n.toNat)
       t.bytePos.toNat = 1 + out.length ∧ t.rlen.toNat = out.length ∧
       (∀ a, t.bufByte a =
          if s.bufLen ≤ a then s.bufByte a
          else if a = 0 then BitVec.ofNat 8 out.length
          else if a ≤ out.length then out.getD (a - 1) 0
          else s.bufByte a)) ∧
      t = { s with buf := t.buf, bytePos := t.bytePos, rlen := t.rlen, draws := t.draws })

/-- RSADEC (`41_rsa.md` R111): its word runs it unless `ERR` is set; with `P = 0` or `Q = 0` it faults and nothing else changes;
otherwise it completes: the plaintext of the four CRT formulae at the start of the buffer, every other byte, the cursor, `RLEN`,
and its frame; `%` on integers is the least non-negative residue (R103, `20_memory.md` R49, R55). -/
def Obligations.RsadecResult : Prop :=
  (∀ (s : State) (rest : List HostAction), s.inbox = .wr32 0#22 0x00000011#32 :: rest →
    step s = if s.err then .next { s with inbox := rest } else exec .rsadec { s with inbox := rest }) ∧
  (∀ s : State, s.p.toNat = 0 ∨ s.q.toNat = 0 → exec .rsadec s =
    .next { s with status := s.status ||| 0x00000001#32, cause := 0x00000002#32, einfo := 0x00000011#32 }) ∧
  (∀ s : State, s.p.toNat ≠ 0 → s.q.toNat ≠ 0 →
    ∃ t : State, exec .rsadec s = .next t ∧
      (let len := (s.memRead s.bytePos.toNat).toNat
       let c := bytesToNat (s.memReadSeq (s.bytePos.toNat + 1) len)
       let mP := c ^ s.dp.toNat % s.p.toNat
       let mQ := c ^ s.dq.toNat % s.q.toNat
       let h := ((s.qinv.toNat : Int) * ((mP : Int) - (mQ : Int))) % (s.p.toNat : Int)
       let out := natToBytes (mQ + h.toNat * s.q.toNat)
       t.bytePos.toNat = 0 ∧ t.rlen.toNat = out.length ∧
       (∀ a, t.bufByte a =
          if s.bufLen ≤ a then s.bufByte a
          else if a < out.length then out.getD a 0
          else s.bufByte a)) ∧
      t = { s with buf := t.buf, bytePos := t.bytePos, rlen := t.rlen, draws := t.draws })

/-- ARITH_FAULT is raised exactly when a modulus the command uses is zero, and then nothing but `ERR`, `CAUSE`, `EINFO` changes;
otherwise the command completes without a fault; after reset every key register is 0 (`60_exceptions.md` R142, R144). -/
def Obligations.ArithFaultExactlyOnZeroModulus : Prop :=
  (∀ s : State, s.n.toNat = 0 → exec .rsaenc s =
    .next { s with status := s.status ||| 0x00000001#32, cause := 0x00000002#32, einfo := 0x00000010#32 }) ∧
  (∀ s : State, s.p.toNat = 0 ∨ s.q.toNat = 0 → exec .rsadec s =
    .next { s with status := s.status ||| 0x00000001#32, cause := 0x00000002#32, einfo := 0x00000011#32 }) ∧
  (∀ s : State, s.n.toNat ≠ 0 → ∃ t, exec .rsaenc s = .next t ∧ t.status = s.status ∧ t.cause = s.cause ∧ t.einfo = s.einfo) ∧
  (∀ s : State, s.p.toNat ≠ 0 → s.q.toNat ≠ 0 →
    ∃ t, exec .rsadec s = .next t ∧ t.status = s.status ∧ t.cause = s.cause ∧ t.einfo = s.einfo) ∧
  (∀ k, State.reset.keyValue k = 0)

/-! ### Big integers -/

/-- R100: `BytesToNat` is the big-endian sum; the empty sequence is 0 and a leading zero byte changes nothing. -/
def Obligations.BytesToNatIsBigEndianSum : Prop :=
  (∀ bs : List Byte, bytesToNat bs =
    ∑ i ∈ Finset.range bs.length, (bs.getD i 0).toNat * 256 ^ (bs.length - 1 - i)) ∧
  bytesToNat [] = 0 ∧
  (∀ bs : List Byte, bytesToNat (0 :: bs) = bytesToNat bs)

/-- R101: `NatToBytes` is the shortest big-endian sequence, never empty, one zero byte for 0, with no sign byte. -/
def Obligations.NatToBytesIsShortestBigEndian : Prop :=
  natToBytes 0 = [0x00#8] ∧ natToBytes 0x80 = [0x80#8] ∧
  (∀ v : Nat, 1 ≤ (natToBytes v).length ∧ bytesToNat (natToBytes v) = v) ∧
  (∀ v : Nat, 1 ≤ v →
    v < 256 ^ (natToBytes v).length ∧ (∀ k, v < 256 ^ k → (natToBytes v).length ≤ k) ∧
    (natToBytes v).head? ≠ some 0x00#8 ∧
    (∀ i < (natToBytes v).length,
      ((natToBytes v).getD i 0).toNat = v / 256 ^ ((natToBytes v).length - 1 - i) % 256))

/-- R102: `ModExp(b, e, m)` is `(b^e) mod m` with the corner cases the rule lists, and the commands fault where it has no value. -/
def Obligations.ModExpIsPowerMod : Prop :=
  (∀ b e m : Nat, 1 ≤ m → modExp b e m = b ^ e % m) ∧
  (∀ b m : Nat, 1 ≤ m → modExp b 0 m = 1 % m) ∧
  (∀ b e : Nat, modExp b e 1 = 0) ∧
  (∀ e m : Nat, 1 ≤ e → 1 ≤ m → modExp 0 e m = 0) ∧
  (∀ b e m : Nat, 1 ≤ m → modExp b e m = modExp (b % m) e m) ∧
  (∀ s : State, s.n.toNat = 0 → ∃ t, exec .rsaenc s = .next t ∧ t.err = true ∧ t.cause = 0x00000002#32) ∧
  (∀ s : State, s.p.toNat = 0 ∨ s.q.toNat = 0 → ∃ t, exec .rsadec s = .next t ∧ t.err = true ∧ t.cause = 0x00000002#32)

/-- The bounds that follow from the register widths: RSAENC's result has 1 to 255 bytes, so the length byte holds its count
exactly, and the cursor ends just past it; RSADEC's has 1 to 256 and the cursor ends at 0 (`41_rsa.md` R103, `10_state.md` R21). -/
def Obligations.CipherResultBounds : Prop :=
  (∀ s t : State, s.n.toNat ≠ 0 → exec .rsaenc s = .next t →
    1 ≤ t.rlen.toNat ∧ t.rlen.toNat ≤ 255 ∧ t.bytePos.toNat = 1 + t.rlen.toNat ∧
    (0 < s.bufLen → (t.bufByte 0).toNat = t.rlen.toNat)) ∧
  (∀ s t : State, s.p.toNat ≠ 0 → s.q.toNat ≠ 0 → exec .rsadec s = .next t →
    1 ≤ t.rlen.toNat ∧ t.rlen.toNat ≤ 256 ∧ t.bytePos.toNat = 0)

/-- RSADEC's result `m`, read back from the buffer when it fits: `m mod Q = mQ`, `m < P*Q`, and `m mod P = mP` when `QINV` inverts
`Q` modulo `P` (`41_rsa.md` R112, first part). -/
def Obligations.RsadecCrtAlgebra : Prop :=
  ∀ s t : State, s.p.toNat ≠ 0 → s.q.toNat ≠ 0 → exec .rsadec s = .next t → t.rlen.toNat ≤ s.bufLen →
    (let c := bytesToNat s.ciphertext
     let m := bytesToNat (t.memReadSeq 0 t.rlen.toNat)
     m % s.q.toNat = c ^ s.dq.toNat % s.q.toNat ∧ m < s.p.toNat * s.q.toNat ∧
     (s.qinv.toNat * s.q.toNat % s.p.toNat = 1 % s.p.toNat → m % s.p.toNat = c ^ s.dp.toNat % s.p.toNat))

/-- The framing of RSAENC's output is what RSADEC expects at the cursor: after RSAENC of a block that fits the buffer, and with
the cursor set back to 0, RSADEC's length is `clen` and its ciphertext integer is `c` (`41_rsa.md` R113, `90_conflicts.md` C3). -/
def Obligations.RsaencOutputIsRsadecInput : Prop :=
  ∀ s t : State, s.n.toNat ≠ 0 → exec .rsaenc s = .next t → 1 + t.rlen.toNat ≤ s.bufLen →
    (({ t with bytePos := 0 } : State).cipherLen = t.rlen.toNat ∧
     bytesToNat ({ t with bytePos := 0 } : State).ciphertext = bytesToNat s.plaintext ^ s.e.toNat % s.n.toNat)

/-- Encrypt-then-decrypt with a matching key pair (`41_rsa.md` R112, second part, `90_conflicts.md` C2): for distinct odd primes
`P`, `Q`, `N = P*Q`, `E*d = 1` modulo `lcm(P-1, Q-1)`, the CRT exponents and coefficient of `d`, and a plaintext below `N`, RSAENC, the
cursor set to 0, and RSADEC leave the plaintext's integer in minimal form, and the very plaintext when its first byte is not
zero. R112 does not exclude the prime 2; it must be excluded (entry 16, `RoundTripFailsForPrimeTwo`). The plaintext and the
framed block lie in the buffer (`70_reset_and_hazards.md` R165). -/
def Obligations.EncryptThenDecryptRoundTrip : Prop :=
  ∀ (s : State) (d : Nat),
    Nat.Prime s.p.toNat → Nat.Prime s.q.toNat → s.p.toNat ≠ s.q.toNat → s.p.toNat ≠ 2 → s.q.toNat ≠ 2 →
    s.n.toNat = s.p.toNat * s.q.toNat →
    s.e.toNat * d % Nat.lcm (s.p.toNat - 1) (s.q.toNat - 1) = 1 →
    s.dp.toNat = d % (s.p.toNat - 1) → s.dq.toNat = d % (s.q.toNat - 1) →
    s.qinv.toNat * s.q.toNat % s.p.toNat = 1 →
    bytesToNat s.plaintext < s.n.toNat →
    s.bytePos.toNat ≤ s.bufLen →
    1 + (natToBytes (bytesToNat s.plaintext ^ s.e.toNat % s.n.toNat)).length ≤ s.bufLen →
    ∃ u t : State, exec .rsaenc s = .next u ∧ exec .rsadec { u with bytePos := 0 } = .next t ∧
      t.memReadSeq 0 t.rlen.toNat = natToBytes (bytesToNat s.plaintext) ∧
      (s.plaintext ≠ [] → s.plaintext.head? ≠ some 0x00#8 → t.memReadSeq 0 t.rlen.toNat = s.plaintext) ∧
      t.status = s.status

/-- Why the round trip excludes the prime 2: a key that meets every other condition of `41_rsa.md` R112 (`P = 2`, `Q = 3`, `N = 6`,
`E = 1`, `d = 1`, so `DP = 1 mod 1 = 0`, `DQ = 1`, `QINV = 1`) turns the plaintext 2 into 5 (entry 16). -/
def Obligations.RoundTripFailsForPrimeTwo : Prop :=
  ∃ s u t : State, s.p.toNat = 2 ∧ s.q.toNat = 3 ∧ s.n.toNat = 6 ∧ s.e.toNat * 1 % Nat.lcm (2 - 1) (3 - 1) = 1 ∧
    s.dp.toNat = 1 % (2 - 1) ∧ s.dq.toNat = 1 % (3 - 1) ∧ s.qinv.toNat * 3 % 2 = 1 ∧ s.plaintext = [0x02#8] ∧
    exec .rsaenc s = .next u ∧ exec .rsadec { u with bytePos := 0 } = .next t ∧
    t.memReadSeq 0 t.rlen.toNat = [0x05#8]

/-! ### Faults -/

/-- Faults are precise: a command that sets `ERR` is RSAENC or RSADEC with a zero modulus, and it changes nothing but `ERR`, `CAUSE`
and `EINFO`, which holds the command's word (`60_exceptions.md` R140, R144). -/
def Obligations.FaultsArePrecise : Prop :=
  ∀ (i : Instr) (s t : State), exec i s = .next t → s.err = false → t.err = true →
    (i = .rsaenc ∧ s.n.toNat = 0 ∨ i = .rsadec ∧ (s.p.toNat = 0 ∨ s.q.toNat = 0)) ∧
    t = { s with status := s.status ||| 0x00000001#32, cause := 0x00000002#32, einfo := encode i } ∧
    t.matched = s.matched ∧ (∀ a, t.bufByte a = s.bufByte a)

/-- Faults do not nest: while a fault is recorded its record stays, whatever the host does, as long as `ERR` stays set
(`60_exceptions.md` R146). -/
def Obligations.FirstFaultRecordIsKept : Prop :=
  ∀ s t : State, step s = .next t → s.err = true → t.err = true → t.cause = s.cause ∧ t.einfo = s.einfo

/-- `ERR` is sticky: only the host's write of 1 to bit 0 of `STATUS`, or reset, takes it from 1 to 0 (`10_state.md` R14,
`60_exceptions.md` R147). -/
def Obligations.ErrClearedOnlyByHostOrReset : Prop :=
  ∀ s t : State, step s = .next t → s.err = true → t.err = false →
    s.inbox.head? = some .reset ∨ ∃ v : Word, v.getLsbD 0 = true ∧ s.inbox.head? = some (.wr32 4#22 v)

/-- Only CHECKCRC, or reset, changes `MATCH`, and only while `ERR = 0` (`10_state.md` R14). -/
def Obligations.MatchWrittenOnlyByCheckcrc : Prop :=
  ∀ s t : State, step s = .next t → t.matched ≠ s.matched →
    s.inbox.head? = some .reset ∨
    (s.err = false ∧ ∃ d, s.inbox.head? = some (.wr32 0#22 (encode (.checkcrc d))))

/-- `CAUSE` and `EINFO` are written only by fault entry and reset: whenever a step changes one of them, the action was reset, or a
word written to `CMD` while `ERR` was 0, and then `ERR` is set and `EINFO` is that word (`10_state.md` R15, R16). -/
def Obligations.FaultRecordWrittenOnlyByFaultEntry : Prop :=
  ∀ s t : State, step s = .next t → (t.cause ≠ s.cause ∨ t.einfo ≠ s.einfo) →
    s.inbox.head? = some .reset ∨
    (∃ w : Word, s.inbox.head? = some (.wr32 0#22 w) ∧ s.err = false ∧ t.err = true ∧ t.einfo = w ∧
      (t.cause = 0x00000001#32 ∨ t.cause = 0x00000002#32))

/-- No command writes a key register, `CRC_OFF`, `CRC_LEN` or `CRC_EXP` (`10_state.md` R11, R18, R22); only the cipher commands write
the buffer, `BYTEPOS` and `RLEN`, and only the checksum commands write `CRC_RES`. -/
def Obligations.CommandsWriteOnlyTheirRegisters : Prop :=
  ∀ (i : Instr) (s t : State), exec i s = .next t →
    (t.n = s.n ∧ t.e = s.e ∧ t.p = s.p ∧ t.q = s.q ∧ t.dp = s.dp ∧ t.dq = s.dq ∧ t.qinv = s.qinv ∧
      t.crcOff = s.crcOff ∧ t.crcLen = s.crcLen ∧ t.crcExp = s.crcExp ∧ t.bufLen = s.bufLen) ∧
    (i ≠ .rsaenc → i ≠ .rsadec → t.bytePos = s.bytePos ∧ t.rlen = s.rlen ∧ ∀ a, t.bufByte a = s.bufByte a) ∧
    (i ≠ .getcrc → (∀ d, i ≠ .checkcrc d) → t.crcRes = s.crcRes)

/-! ### Memory and host accesses -/

/-- R45: `MemWrite` stores inside the buffer and nowhere else, and is dropped at or beyond `BUFLEN`. -/
def Obligations.MemWriteInsideOrDropped : Prop :=
  ∀ (s : State) (addr : Nat) (v : Byte),
    (addr < s.bufLen →
      s.memWrite addr v = { s with buf := (s.memWrite addr v).buf } ∧
      ∀ a, (s.memWrite addr v).bufByte a = if a = addr then v else s.bufByte a) ∧
    (s.bufLen ≤ addr → s.memWrite addr v = s)

/-- R134: error clear. -/
def Obligations.ErrorClear : Prop :=
  ∀ (s : State) (v : Word) (rest : List HostAction), s.inbox = .wr32 4#22 v :: rest →
    ∃ t : State, step s = .next t ∧ t.err = (s.err && !v.getLsbD 0) ∧
      (∀ k, k ≠ 0 → t.status.getLsbD k = s.status.getLsbD k) ∧
      t = { s with inbox := rest, status := t.status }

/-- R131: the value a register read returns, for every register and key word, and that it changes nothing. The list `reads` the
value joins is the host's record (entry 2). -/
def Obligations.RegisterReadValue : Prop :=
  ∀ (s : State) (off : Offset) (x : WordTarget) (rest : List HostAction),
    s.inbox = .rd32 off :: rest → wordTarget off = .ok x →
    ∃ v : Word, step s = .next { s with inbox := rest, reads := s.reads ++ [.word v] } ∧
      (match x with
       | .scalar .cmd => v = 0
       | .scalar .status => v.getLsbD 0 = s.err ∧ v.getLsbD 1 = s.matched ∧ v >>> 2 = 0
       | .scalar .cause => v >>> 8 = 0 ∧ ∀ k < 8, v.getLsbD k = s.cause.getLsbD k
       | .scalar .einfo => v = s.einfo
       | .scalar .bytePos => v = s.bytePos
       | .scalar .crcOff => v = s.crcOff
       | .scalar .crcLen => v = s.crcLen
       | .scalar .crcExp => v = s.crcExp
       | .scalar .crcRes => v = s.crcRes
       | .scalar .rlen => v = s.rlen
       | .keyWord k j => v.toNat = s.keyValue k / 2 ^ (32 * j) % 2 ^ 32 ∧
           ((k = .n ∨ k = .e) → j = 63 → v >>> 24 = 0))

/-- R132: what a register write does, for every register and key word, whether or not `ERR` is set. -/
def Obligations.RegisterWriteEffect : Prop :=
  ∀ (s : State) (off : Offset) (v : Word) (x : WordTarget) (rest : List HostAction),
    s.inbox = .wr32 off v :: rest → wordTarget off = .ok x →
      (match x with
       | .scalar .cmd => step s = ({ s with inbox := rest } : State).issue v
       | .scalar .status => ∃ t : State, step s = .next t ∧ t.err = (s.err && !v.getLsbD 0) ∧
           (∀ k, k ≠ 0 → t.status.getLsbD k = s.status.getLsbD k) ∧ t = { s with inbox := rest, status := t.status }
       | .scalar .cause => step s = .next { s with inbox := rest }
       | .scalar .einfo => step s = .next { s with inbox := rest }
       | .scalar .crcRes => step s = .next { s with inbox := rest }
       | .scalar .rlen => step s = .next { s with inbox := rest }
       | .scalar .bytePos => step s = .next { s with inbox := rest, bytePos := v }
       | .scalar .crcOff => step s = .next { s with inbox := rest, crcOff := v }
       | .scalar .crcLen => step s = .next { s with inbox := rest, crcLen := v }
       | .scalar .crcExp => step s = .next { s with inbox := rest, crcExp := v }
       | .keyWord k j => ∃ t : State, step s = .next t ∧
           t.readKeyWord k j = (if (k = .n ∨ k = .e) ∧ j = 63 then v &&& 0x00FFFFFF#32 else v) ∧
           (∀ k' i, i < keyWords k' → ¬(k' = k ∧ i = j) → t.readKeyWord k' i = s.readKeyWord k' i) ∧
           t = { s with inbox := rest, n := t.n, e := t.e, p := t.p, q := t.q, dp := t.dp, dq := t.dq, qinv := t.qinv })

/-- R133 with `20_memory.md` R43: buffer accesses of the host, inside the buffer and beyond it, whether or not `ERR` is set. Beyond
it a read returns some byte, of which nothing is said. -/
def Obligations.HostBufferAccess : Prop :=
  ∀ (s : State) (k : Nat) (rest : List HostAction), k < 2 ^ 21 →
    (s.inbox = .rd8 (BitVec.ofNat 22 (0x200000 + k)) :: rest →
      ∃ (b : Byte) (t : State), step s = .next t ∧ (k < s.bufLen → b = s.bufByte k) ∧
        t = { s with inbox := rest, reads := s.reads ++ [.byte b], draws := t.draws }) ∧
    (∀ v : Byte, s.inbox = .wr8 (BitVec.ofNat 22 (0x200000 + k)) v :: rest →
      ∃ t : State, step s = .next t ∧ t = { s with inbox := rest, buf := t.buf } ∧
        ∀ a, t.bufByte a = if a = k ∧ k < s.bufLen then v else s.bufByte a)

/-- A key register is the sum of its words, least significant first; a write of one word changes that word only, and the bits
`N` and `E` do not have read as 0 and ignore writes (`10_state.md` R22, R23, `20_memory.md` R47). -/
def Obligations.KeyRegisterIsSumOfItsWords : Prop :=
  ∀ (s : State) (k : KeyReg),
    s.keyValue k = ∑ j ∈ Finset.range (keyWords k), (s.readKeyWord k j).toNat * 2 ^ (32 * j) ∧
    (∀ j < keyWords k, ∀ x : Word,
      (s.writeKeyWord k j x).readKeyWord k j = (if (k = .n ∨ k = .e) ∧ j = 63 then x &&& 0x00FFFFFF#32 else x) ∧
      ∀ k' i, i < keyWords k' → ¬(k' = k ∧ i = j) → (s.writeKeyWord k j x).readKeyWord k' i = s.readKeyWord k' i)

/-- The address map: every named word of the register space has one offset, and it decodes to that word and no other
(`20_memory.md` R41). -/
def Obligations.AddressMapIsExact : Prop :=
  (∀ r : ScalarReg, wordTarget (offsetOf (.scalar r)) = .ok (.scalar r)) ∧
  (∀ (k : KeyReg) (j : Nat), j < keyWords k → wordTarget (offsetOf (.keyWord k j)) = .ok (.keyWord k j)) ∧
  (∀ (off : Offset) (x : WordTarget), wordTarget off = .ok x →
    offsetOf x = off ∧ ∀ k j, x = .keyWord k j → j < keyWords k)

/-- Which accesses go on and which get the bus's error response (`20_memory.md` R42, R43, R56). The names of the stops, and the
order in which they are tried, are the model's (entry 6). -/
def Obligations.BusErrorAccessesStop : Prop :=
  ∀ (s : State) (off : Offset) (rest : List HostAction) (v : Word) (b : Byte) (bits : Nat),
    (let o := off.toNat
     let reserved := (0x28 ≤ o ∧ o < 0x100) ∨ (0x580 ≤ o ∧ o < 0x200000)
     (∀ a ∈ [HostAction.rd32 off, .wr32 off v], s.inbox = a :: rest →
       (reserved → step s = .fault (.reservedOffset off)) ∧
       (0x200000 ≤ o → step s = .refused (.wrongWidth off)) ∧
       (o < 0x200000 → ¬reserved → o % 4 ≠ 0 → step s = .refused (.misaligned off)) ∧
       (o < 0x200000 → ¬reserved → o % 4 = 0 → ∃ t, step s = .next t)) ∧
     (∀ a ∈ [HostAction.rd8 off, .wr8 off b], s.inbox = a :: rest →
       (reserved → step s = .fault (.reservedOffset off)) ∧
       (o < 0x200000 → ¬reserved → step s = .refused (.wrongWidth off)) ∧
       (0x200000 ≤ o → ∃ t, step s = .next t)) ∧
     (s.inbox = .otherWidth bits off :: rest →
       (reserved → step s = .fault (.reservedOffset off)) ∧
       (¬reserved → step s = .refused (.wrongWidth off))))

/-- The machine goes on exactly when the next host action is well formed: no data and no command ends a run
(`60_exceptions.md` R151, `70_reset_and_hazards.md` R170, `20_memory.md` R56). -/
def Obligations.OnlyMalformedAccessesStop : Prop :=
  ∀ s : State, s.proceeds ↔ s.nextWellFormed = true

/-! ### Reset and the invariant -/

/-- The reset values of `10_state.md` R26, and a legal `BUFLEN` (`00_scope.md` R4). -/
def Obligations.ResetValues : Prop :=
  (let s := State.reset
   s.status = 0 ∧ s.cause = 0 ∧ s.einfo = 0 ∧ s.bytePos = 0 ∧ s.crcOff = 0 ∧ s.crcLen = 0 ∧ s.crcExp = 0 ∧ s.crcRes = 0 ∧
   s.rlen = 0 ∧ (∀ k, s.keyValue k = 0) ∧ 1 ≤ s.bufLen ∧ s.bufLen ≤ 2097152)

/-- The platform's reset, from any state, also one with `ERR` set (`70_reset_and_hazards.md` R160, `10_state.md` R26): every register
at its reset value, `BUFLEN` kept. Nothing is said of the buffer's content. -/
def Obligations.PlatformReset : Prop :=
  ∀ (s : State) (rest : List HostAction), s.inbox = .reset :: rest →
    ∃ t : State, step s = .next t ∧ t.status = 0 ∧ t.cause = 0 ∧ t.einfo = 0 ∧ t.bytePos = 0 ∧ t.crcOff = 0 ∧ t.crcLen = 0 ∧
      t.crcExp = 0 ∧ t.crcRes = 0 ∧ t.rlen = 0 ∧ (∀ k, t.keyValue k = 0) ∧ t.bufLen = s.bufLen ∧ t.inbox = rest

/-- The reset state meets the invariant. -/
def Obligations.ResetMeetsInvariant : Prop := State.reset.Inv

/-- Every step keeps the invariant: reserved `STATUS` bits stay 0, the fault record stays one the spec allows, `RLEN` stays at most
256, `BUFLEN` stays legal, the buffer stays canonical and inside its length (`10_state.md` R14, R15, R16, R21, `60_exceptions.md` R140,
`00_scope.md` R5, `20_memory.md` R45, `41_rsa.md` R103). -/
def Obligations.StepKeepsInvariant : Prop := ∀ s t : State, s.Inv → step s = .next t → t.Inv
end

