-- ==== Sys2Proof/Laws/BigNat.lean ====
section
/-! SUPPORT. The recursion equations of the big-integer primitives. -/

namespace Sys2Proof.Machine

theorem foldl_bytes (bs : List Byte) (a : Nat) :
    bs.foldl (fun a b => a * 256 + b.toNat) a = a * 256 ^ bs.length + bytesToNat bs := by
  induction bs generalizing a with
  | nil => simp [bytesToNat]
  | cons b bs ih =>
    have h : bytesToNat (b :: bs) = (0 * 256 + b.toNat) * 256 ^ bs.length + bytesToNat bs := ih (0 * 256 + b.toNat)
    rw [List.foldl_cons, ih, h, List.length_cons]
    ring

/-- The first byte is the most significant. -/
theorem bytesToNat_cons (b : Byte) (bs : List Byte) :
    bytesToNat (b :: bs) = b.toNat * 256 ^ bs.length + bytesToNat bs := by
  show bs.foldl (fun a b => a * 256 + b.toNat) (0 * 256 + b.toNat) = _
  rw [foldl_bytes, Nat.zero_mul, Nat.zero_add]

@[simp] theorem natToBytes_length (v : Nat) : (natToBytes v).length = byteLength v := by
  simp [natToBytes]

/-- One round of square and multiply. -/
theorem modExpLoop_succ (m fuel b e acc : Nat) :
    modExpLoop m (fuel + 1) b e acc =
      modExpLoop m fuel (b * b % m) (e / 2) (if e % 2 = 1 then acc * b % m else acc) := rfl

end Sys2Proof.Machine
end

