-- ==== Sys2Proof/Laws/Decode.lean ====
section
/-! SUPPORT. The fields of format `C` as numbers, and the bits the encoder puts there (`30_encoding.md` R61). -/

namespace Sys2Proof

theorem zeroField_toNat (w : Word) : (zeroField w).toNat = w.toNat / 512 := by
  have := w.isLt
  simp only [zeroField, BitVec.extractLsb'_toNat, Nat.shiftRight_eq_div_pow]
  omega

theorem opField_toNat (w : Word) : (opField w).toNat = w.toNat % 256 := by
  simp [opField, BitVec.extractLsb'_toNat]

theorem dField_eq (w : Word) : dField w = decide (w.toNat / 256 % 2 = 1) := by
  simp [dField, BitVec.getLsbD, Nat.testBit_eq_decide_div_mod_eq]

/-- A word is its three fields. -/
theorem toNat_eq_fields (w : Word) :
    w.toNat = (zeroField w).toNat * 512 + (dField w).toNat * 256 + (opField w).toNat := by
  rw [zeroField_toNat, opField_toNat, dField_eq]
  by_cases h : w.toNat / 256 % 2 = 1
  · simp only [h, decide_true, Bool.toNat_true]
    omega
  · simp only [h, decide_false, Bool.toNat_false]
    omega

/-- Two words with the same fields are equal. -/
theorem word_ext {v w : Word} (hz : zeroField v = zeroField w) (hd : dField v = dField w) (ho : opField v = opField w) :
    v = w :=
  BitVec.eq_of_toNat_eq (by rw [toNat_eq_fields v, toNat_eq_fields w, hz, hd, ho])

theorem zeroField_encode (i : Instr) : zeroField (encode i) = 0 := by
  cases i <;> first | rfl | (rename_i d; cases d <;> rfl)

end Sys2Proof
end

