-- ==== Sys2Proof/Laws/Memory.lean ====
section
/-! SUPPORT. The buffer as a memory: a read after a write, and every write keeps the canonical form and the buffer's length. -/

namespace Sys2Proof.Machine

@[simp] theorem Memory.read_nil (a : Nat) : Memory.read [] a = none := rfl

theorem Memory.read_cons (b : Nat) (v : Byte) (m : Memory) (a : Nat) :
    Memory.read ((b, v) :: m) a = if a = b then some v else Memory.read m a := rfl

@[simp] theorem Memory.wf_nil : Memory.wf [] = true := rfl

/-- The canonical form is the strict order of the indexes. -/
theorem Memory.wf_iff_pairwise (m : Memory) :
    Memory.wf m = true ↔ m.Pairwise (fun c d => c.1 < d.1) := by
  induction m with
  | nil => simp
  | cons c m ih =>
    obtain ⟨a, x⟩ := c
    cases m with
    | nil => simp [Memory.wf]
    | cons d m =>
      obtain ⟨b, y⟩ := d
      simp only [Memory.wf, Bool.and_eq_true, decide_eq_true_eq, ih, List.pairwise_cons, List.mem_cons]
      constructor
      · rintro ⟨hab, hb, hm⟩
        refine ⟨?_, hb, hm⟩
        rintro c (rfl | hc)
        · exact hab
        · exact hab.trans (hb c hc)
      · rintro ⟨ha, hb, hm⟩
        exact ⟨ha _ (Or.inl rfl), hb, hm⟩

/-- What a write lists: the index written, and indexes listed before. -/
theorem Memory.mem_write {m : Memory} {a : Nat} {v : Byte} {c : Host.Cell} (h : c ∈ Memory.write m a v) :
    c.1 = a ∨ c ∈ m := by
  induction m with
  | nil => simp_all [Memory.write]
  | cons d m ih =>
    obtain ⟨b, x⟩ := d
    simp only [Memory.write] at h
    split at h
    · rcases List.mem_cons.1 h with rfl | h
      · exact .inl rfl
      · exact .inr h
    · split at h
      · rcases List.mem_cons.1 h with rfl | h
        · exact .inl rfl
        · exact .inr (List.mem_cons_of_mem _ h)
      · rcases List.mem_cons.1 h with rfl | h
        · exact .inr (List.mem_cons_self ..)
        · exact (ih h).imp id (List.mem_cons_of_mem _)

/-- A write keeps the canonical form. -/
theorem Memory.wf_write {m : Memory} (a : Nat) (v : Byte) (h : Memory.wf m = true) :
    Memory.wf (Memory.write m a v) = true := by
  rw [Memory.wf_iff_pairwise] at *
  induction m with
  | nil => simp [Memory.write]
  | cons d m ih =>
    obtain ⟨b, x⟩ := d
    rw [List.pairwise_cons] at h
    simp only [Memory.write]
    split
    · rename_i hab
      refine List.pairwise_cons.2 ⟨fun c hc => ?_, List.pairwise_cons.2 h⟩
      rcases List.mem_cons.1 hc with rfl | hc
      · exact hab
      · exact hab.trans (h.1 c hc)
    · split
      · rename_i hab
        subst hab
        exact List.pairwise_cons.2 h
      · rename_i hlt hne
        refine List.pairwise_cons.2 ⟨fun c hc => ?_, ih h.2⟩
        rcases Memory.mem_write hc with hc | hc
        · show b < c.1
          omega
        · exact h.1 c hc

/-- In canonical memory, an index below every listed one reads as not written. -/
theorem Memory.read_eq_none {m : Memory} {a : Nat} (h : ∀ c ∈ m, a < c.1) : Memory.read m a = none := by
  induction m with
  | nil => rfl
  | cons d m ih =>
    obtain ⟨b, x⟩ := d
    have hb : a < b := h (b, x) (List.mem_cons_self ..)
    rw [Memory.read_cons, if_neg (by omega), ih fun c hc => h c (List.mem_cons_of_mem _ hc)]

/-- A read after a write: the value written at its index, every other index as before. -/
theorem Memory.read_write (m : Memory) (a k : Nat) (v : Byte) :
    Memory.read (Memory.write m a v) k = if k = a then some v else Memory.read m k := by
  induction m with
  | nil => simp [Memory.write, Memory.read_cons]
  | cons d m ih =>
    obtain ⟨b, x⟩ := d
    simp only [Memory.write]
    split
    · simp [Memory.read_cons]
    · split
      · rename_i hab
        subst hab
        by_cases hk : k = a <;> simp [Memory.read_cons, hk]
      · rename_i hlt hne
        rw [Memory.read_cons, ih, Memory.read_cons]
        by_cases hk : k = b
        · subst hk
          simp [Ne.symm hne]
        · simp [hk]

/-- A write inside the buffer, or one that is dropped. -/
theorem Memory.read_writeIn (len : Nat) (m : Memory) (a k : Nat) (v : Byte) :
    Memory.read (Memory.writeIn len m a v) k = if k = a ∧ a < len then some v else Memory.read m k := by
  unfold Memory.writeIn
  split <;> simp_all [Memory.read_write]

theorem Memory.wf_writeIn (len : Nat) {m : Memory} (a : Nat) (v : Byte) (h : Memory.wf m = true) :
    Memory.wf (Memory.writeIn len m a v) = true := by
  unfold Memory.writeIn
  split
  · exact Memory.wf_write a v h
  · exact h

theorem Memory.inside_writeIn {len : Nat} {m : Memory} (a : Nat) (v : Byte) (h : ∀ c ∈ m, c.1 < len) :
    ∀ c ∈ Memory.writeIn len m a v, c.1 < len := by
  unfold Memory.writeIn
  split
  · rename_i ha
    intro c hc
    rcases Memory.mem_write hc with rfl | hc
    · exact ha
    · exact h c hc
  · exact h

/-- What a sequence of writes leaves: the sequence's bytes inside the buffer, everything else as before. -/
theorem Memory.read_writeSeqIn (len : Nat) (m : Memory) (a k : Nat) (bs : List Byte) :
    Memory.read (Memory.writeSeqIn len m a bs) k =
      if a ≤ k ∧ k < a + bs.length ∧ k < len then bs[k - a]? else Memory.read m k := by
  induction bs generalizing m a with
  | nil =>
    rw [if_neg (by simp only [List.length_nil]; omega)]
    rfl
  | cons b bs ih =>
    rw [Memory.writeSeqIn, ih, Memory.read_writeIn]
    simp only [List.length_cons]
    by_cases hk : k = a
    · subst hk
      by_cases hl : k < len <;> simp [hl]
    · by_cases hin : a + 1 ≤ k ∧ k < a + 1 + bs.length ∧ k < len
      · rw [if_pos hin, if_pos (by omega), show k - a = (k - (a + 1)) + 1 by omega, List.getElem?_cons_succ]
      · rw [if_neg hin, if_neg (by omega), if_neg (by omega)]

theorem Memory.wf_writeSeqIn (len : Nat) (bs : List Byte) {m : Memory} (a : Nat) (h : Memory.wf m = true) :
    Memory.wf (Memory.writeSeqIn len m a bs) = true := by
  induction bs generalizing m a with
  | nil => exact h
  | cons b bs ih => exact ih (a + 1) (Memory.wf_writeIn len a b h)

theorem Memory.inside_writeSeqIn {len : Nat} (bs : List Byte) {m : Memory} (a : Nat) (h : ∀ c ∈ m, c.1 < len) :
    ∀ c ∈ Memory.writeSeqIn len m a bs, c.1 < len := by
  induction bs generalizing m a with
  | nil => exact h
  | cons b bs ih => exact ih (a + 1) (Memory.inside_writeIn a b h)

/-- The reset state's memory is in canonical form. -/
theorem State.reset_buf_wf : State.reset.buf.wf = true := rfl

end Sys2Proof.Machine
end

