-- ==== Sys2Proof/Laws/State.lean ====
section
/-! SUPPORT. One lemma per field per update of the state, true by rfl, so that no later proof unfolds a record update. -/

namespace Sys2Proof.Machine

@[simp] theorem State.setErr_status (s : State) :
    s.setErr.status = s.status ||| errMask := rfl
@[simp] theorem State.setErr_cause (s : State) :
    s.setErr.cause = s.cause := rfl
@[simp] theorem State.setErr_einfo (s : State) :
    s.setErr.einfo = s.einfo := rfl
@[simp] theorem State.setErr_bytePos (s : State) :
    s.setErr.bytePos = s.bytePos := rfl
@[simp] theorem State.setErr_crcOff (s : State) :
    s.setErr.crcOff = s.crcOff := rfl
@[simp] theorem State.setErr_crcLen (s : State) :
    s.setErr.crcLen = s.crcLen := rfl
@[simp] theorem State.setErr_crcExp (s : State) :
    s.setErr.crcExp = s.crcExp := rfl
@[simp] theorem State.setErr_crcRes (s : State) :
    s.setErr.crcRes = s.crcRes := rfl
@[simp] theorem State.setErr_rlen (s : State) :
    s.setErr.rlen = s.rlen := rfl
@[simp] theorem State.setErr_n (s : State) :
    s.setErr.n = s.n := rfl
@[simp] theorem State.setErr_e (s : State) :
    s.setErr.e = s.e := rfl
@[simp] theorem State.setErr_p (s : State) :
    s.setErr.p = s.p := rfl
@[simp] theorem State.setErr_q (s : State) :
    s.setErr.q = s.q := rfl
@[simp] theorem State.setErr_dp (s : State) :
    s.setErr.dp = s.dp := rfl
@[simp] theorem State.setErr_dq (s : State) :
    s.setErr.dq = s.dq := rfl
@[simp] theorem State.setErr_qinv (s : State) :
    s.setErr.qinv = s.qinv := rfl
@[simp] theorem State.setErr_bufLen (s : State) :
    s.setErr.bufLen = s.bufLen := rfl
@[simp] theorem State.setErr_buf (s : State) :
    s.setErr.buf = s.buf := rfl
@[simp] theorem State.setErr_inbox (s : State) :
    s.setErr.inbox = s.inbox := rfl
@[simp] theorem State.setErr_reads (s : State) :
    s.setErr.reads = s.reads := rfl
@[simp] theorem State.setErr_draws (s : State) :
    s.setErr.draws = s.draws := rfl
@[simp] theorem State.setErr_epoch (s : State) :
    s.setErr.epoch = s.epoch := rfl

@[simp] theorem State.clearErr_status (s : State) :
    s.clearErr.status = s.status &&& ~~~errMask := rfl
@[simp] theorem State.clearErr_cause (s : State) :
    s.clearErr.cause = s.cause := rfl
@[simp] theorem State.clearErr_einfo (s : State) :
    s.clearErr.einfo = s.einfo := rfl
@[simp] theorem State.clearErr_bytePos (s : State) :
    s.clearErr.bytePos = s.bytePos := rfl
@[simp] theorem State.clearErr_crcOff (s : State) :
    s.clearErr.crcOff = s.crcOff := rfl
@[simp] theorem State.clearErr_crcLen (s : State) :
    s.clearErr.crcLen = s.crcLen := rfl
@[simp] theorem State.clearErr_crcExp (s : State) :
    s.clearErr.crcExp = s.crcExp := rfl
@[simp] theorem State.clearErr_crcRes (s : State) :
    s.clearErr.crcRes = s.crcRes := rfl
@[simp] theorem State.clearErr_rlen (s : State) :
    s.clearErr.rlen = s.rlen := rfl
@[simp] theorem State.clearErr_n (s : State) :
    s.clearErr.n = s.n := rfl
@[simp] theorem State.clearErr_e (s : State) :
    s.clearErr.e = s.e := rfl
@[simp] theorem State.clearErr_p (s : State) :
    s.clearErr.p = s.p := rfl
@[simp] theorem State.clearErr_q (s : State) :
    s.clearErr.q = s.q := rfl
@[simp] theorem State.clearErr_dp (s : State) :
    s.clearErr.dp = s.dp := rfl
@[simp] theorem State.clearErr_dq (s : State) :
    s.clearErr.dq = s.dq := rfl
@[simp] theorem State.clearErr_qinv (s : State) :
    s.clearErr.qinv = s.qinv := rfl
@[simp] theorem State.clearErr_bufLen (s : State) :
    s.clearErr.bufLen = s.bufLen := rfl
@[simp] theorem State.clearErr_buf (s : State) :
    s.clearErr.buf = s.buf := rfl
@[simp] theorem State.clearErr_inbox (s : State) :
    s.clearErr.inbox = s.inbox := rfl
@[simp] theorem State.clearErr_reads (s : State) :
    s.clearErr.reads = s.reads := rfl
@[simp] theorem State.clearErr_draws (s : State) :
    s.clearErr.draws = s.draws := rfl
@[simp] theorem State.clearErr_epoch (s : State) :
    s.clearErr.epoch = s.epoch := rfl

@[simp] theorem State.setMatch_status (b : Bool) (s : State) :
    (s.setMatch b).status = (s.status &&& ~~~matchMask) ||| (if b then matchMask else 0) := rfl
@[simp] theorem State.setMatch_cause (b : Bool) (s : State) :
    (s.setMatch b).cause = s.cause := rfl
@[simp] theorem State.setMatch_einfo (b : Bool) (s : State) :
    (s.setMatch b).einfo = s.einfo := rfl
@[simp] theorem State.setMatch_bytePos (b : Bool) (s : State) :
    (s.setMatch b).bytePos = s.bytePos := rfl
@[simp] theorem State.setMatch_crcOff (b : Bool) (s : State) :
    (s.setMatch b).crcOff = s.crcOff := rfl
@[simp] theorem State.setMatch_crcLen (b : Bool) (s : State) :
    (s.setMatch b).crcLen = s.crcLen := rfl
@[simp] theorem State.setMatch_crcExp (b : Bool) (s : State) :
    (s.setMatch b).crcExp = s.crcExp := rfl
@[simp] theorem State.setMatch_crcRes (b : Bool) (s : State) :
    (s.setMatch b).crcRes = s.crcRes := rfl
@[simp] theorem State.setMatch_rlen (b : Bool) (s : State) :
    (s.setMatch b).rlen = s.rlen := rfl
@[simp] theorem State.setMatch_n (b : Bool) (s : State) :
    (s.setMatch b).n = s.n := rfl
@[simp] theorem State.setMatch_e (b : Bool) (s : State) :
    (s.setMatch b).e = s.e := rfl
@[simp] theorem State.setMatch_p (b : Bool) (s : State) :
    (s.setMatch b).p = s.p := rfl
@[simp] theorem State.setMatch_q (b : Bool) (s : State) :
    (s.setMatch b).q = s.q := rfl
@[simp] theorem State.setMatch_dp (b : Bool) (s : State) :
    (s.setMatch b).dp = s.dp := rfl
@[simp] theorem State.setMatch_dq (b : Bool) (s : State) :
    (s.setMatch b).dq = s.dq := rfl
@[simp] theorem State.setMatch_qinv (b : Bool) (s : State) :
    (s.setMatch b).qinv = s.qinv := rfl
@[simp] theorem State.setMatch_bufLen (b : Bool) (s : State) :
    (s.setMatch b).bufLen = s.bufLen := rfl
@[simp] theorem State.setMatch_buf (b : Bool) (s : State) :
    (s.setMatch b).buf = s.buf := rfl
@[simp] theorem State.setMatch_inbox (b : Bool) (s : State) :
    (s.setMatch b).inbox = s.inbox := rfl
@[simp] theorem State.setMatch_reads (b : Bool) (s : State) :
    (s.setMatch b).reads = s.reads := rfl
@[simp] theorem State.setMatch_draws (b : Bool) (s : State) :
    (s.setMatch b).draws = s.draws := rfl
@[simp] theorem State.setMatch_epoch (b : Bool) (s : State) :
    (s.setMatch b).epoch = s.epoch := rfl

@[simp] theorem State.raise_status (s : State) (f : EngineFault) (w : Word) :
    (s.raise f w).status = s.status ||| errMask := rfl
@[simp] theorem State.raise_cause (s : State) (f : EngineFault) (w : Word) :
    (s.raise f w).cause = f.code := rfl
@[simp] theorem State.raise_einfo (s : State) (f : EngineFault) (w : Word) :
    (s.raise f w).einfo = w := rfl
@[simp] theorem State.raise_bytePos (s : State) (f : EngineFault) (w : Word) :
    (s.raise f w).bytePos = s.bytePos := rfl
@[simp] theorem State.raise_crcOff (s : State) (f : EngineFault) (w : Word) :
    (s.raise f w).crcOff = s.crcOff := rfl
@[simp] theorem State.raise_crcLen (s : State) (f : EngineFault) (w : Word) :
    (s.raise f w).crcLen = s.crcLen := rfl
@[simp] theorem State.raise_crcExp (s : State) (f : EngineFault) (w : Word) :
    (s.raise f w).crcExp = s.crcExp := rfl
@[simp] theorem State.raise_crcRes (s : State) (f : EngineFault) (w : Word) :
    (s.raise f w).crcRes = s.crcRes := rfl
@[simp] theorem State.raise_rlen (s : State) (f : EngineFault) (w : Word) :
    (s.raise f w).rlen = s.rlen := rfl
@[simp] theorem State.raise_n (s : State) (f : EngineFault) (w : Word) :
    (s.raise f w).n = s.n := rfl
@[simp] theorem State.raise_e (s : State) (f : EngineFault) (w : Word) :
    (s.raise f w).e = s.e := rfl
@[simp] theorem State.raise_p (s : State) (f : EngineFault) (w : Word) :
    (s.raise f w).p = s.p := rfl
@[simp] theorem State.raise_q (s : State) (f : EngineFault) (w : Word) :
    (s.raise f w).q = s.q := rfl
@[simp] theorem State.raise_dp (s : State) (f : EngineFault) (w : Word) :
    (s.raise f w).dp = s.dp := rfl
@[simp] theorem State.raise_dq (s : State) (f : EngineFault) (w : Word) :
    (s.raise f w).dq = s.dq := rfl
@[simp] theorem State.raise_qinv (s : State) (f : EngineFault) (w : Word) :
    (s.raise f w).qinv = s.qinv := rfl
@[simp] theorem State.raise_bufLen (s : State) (f : EngineFault) (w : Word) :
    (s.raise f w).bufLen = s.bufLen := rfl
@[simp] theorem State.raise_buf (s : State) (f : EngineFault) (w : Word) :
    (s.raise f w).buf = s.buf := rfl
@[simp] theorem State.raise_inbox (s : State) (f : EngineFault) (w : Word) :
    (s.raise f w).inbox = s.inbox := rfl
@[simp] theorem State.raise_reads (s : State) (f : EngineFault) (w : Word) :
    (s.raise f w).reads = s.reads := rfl
@[simp] theorem State.raise_draws (s : State) (f : EngineFault) (w : Word) :
    (s.raise f w).draws = s.draws := rfl
@[simp] theorem State.raise_epoch (s : State) (f : EngineFault) (w : Word) :
    (s.raise f w).epoch = s.epoch := rfl

@[simp] theorem State.nextDraw_status (s : State) :
    s.nextDraw.status = s.status := rfl
@[simp] theorem State.nextDraw_cause (s : State) :
    s.nextDraw.cause = s.cause := rfl
@[simp] theorem State.nextDraw_einfo (s : State) :
    s.nextDraw.einfo = s.einfo := rfl
@[simp] theorem State.nextDraw_bytePos (s : State) :
    s.nextDraw.bytePos = s.bytePos := rfl
@[simp] theorem State.nextDraw_crcOff (s : State) :
    s.nextDraw.crcOff = s.crcOff := rfl
@[simp] theorem State.nextDraw_crcLen (s : State) :
    s.nextDraw.crcLen = s.crcLen := rfl
@[simp] theorem State.nextDraw_crcExp (s : State) :
    s.nextDraw.crcExp = s.crcExp := rfl
@[simp] theorem State.nextDraw_crcRes (s : State) :
    s.nextDraw.crcRes = s.crcRes := rfl
@[simp] theorem State.nextDraw_rlen (s : State) :
    s.nextDraw.rlen = s.rlen := rfl
@[simp] theorem State.nextDraw_n (s : State) :
    s.nextDraw.n = s.n := rfl
@[simp] theorem State.nextDraw_e (s : State) :
    s.nextDraw.e = s.e := rfl
@[simp] theorem State.nextDraw_p (s : State) :
    s.nextDraw.p = s.p := rfl
@[simp] theorem State.nextDraw_q (s : State) :
    s.nextDraw.q = s.q := rfl
@[simp] theorem State.nextDraw_dp (s : State) :
    s.nextDraw.dp = s.dp := rfl
@[simp] theorem State.nextDraw_dq (s : State) :
    s.nextDraw.dq = s.dq := rfl
@[simp] theorem State.nextDraw_qinv (s : State) :
    s.nextDraw.qinv = s.qinv := rfl
@[simp] theorem State.nextDraw_bufLen (s : State) :
    s.nextDraw.bufLen = s.bufLen := rfl
@[simp] theorem State.nextDraw_buf (s : State) :
    s.nextDraw.buf = s.buf := rfl
@[simp] theorem State.nextDraw_inbox (s : State) :
    s.nextDraw.inbox = s.inbox := rfl
@[simp] theorem State.nextDraw_reads (s : State) :
    s.nextDraw.reads = s.reads := rfl
@[simp] theorem State.nextDraw_draws (s : State) :
    s.nextDraw.draws = s.draws + 1 := rfl
@[simp] theorem State.nextDraw_epoch (s : State) :
    s.nextDraw.epoch = s.epoch := rfl

@[simp] theorem State.memWrite_status (s : State) (a : Nat) (v : Byte) :
    (s.memWrite a v).status = s.status := rfl
@[simp] theorem State.memWrite_cause (s : State) (a : Nat) (v : Byte) :
    (s.memWrite a v).cause = s.cause := rfl
@[simp] theorem State.memWrite_einfo (s : State) (a : Nat) (v : Byte) :
    (s.memWrite a v).einfo = s.einfo := rfl
@[simp] theorem State.memWrite_bytePos (s : State) (a : Nat) (v : Byte) :
    (s.memWrite a v).bytePos = s.bytePos := rfl
@[simp] theorem State.memWrite_crcOff (s : State) (a : Nat) (v : Byte) :
    (s.memWrite a v).crcOff = s.crcOff := rfl
@[simp] theorem State.memWrite_crcLen (s : State) (a : Nat) (v : Byte) :
    (s.memWrite a v).crcLen = s.crcLen := rfl
@[simp] theorem State.memWrite_crcExp (s : State) (a : Nat) (v : Byte) :
    (s.memWrite a v).crcExp = s.crcExp := rfl
@[simp] theorem State.memWrite_crcRes (s : State) (a : Nat) (v : Byte) :
    (s.memWrite a v).crcRes = s.crcRes := rfl
@[simp] theorem State.memWrite_rlen (s : State) (a : Nat) (v : Byte) :
    (s.memWrite a v).rlen = s.rlen := rfl
@[simp] theorem State.memWrite_n (s : State) (a : Nat) (v : Byte) :
    (s.memWrite a v).n = s.n := rfl
@[simp] theorem State.memWrite_e (s : State) (a : Nat) (v : Byte) :
    (s.memWrite a v).e = s.e := rfl
@[simp] theorem State.memWrite_p (s : State) (a : Nat) (v : Byte) :
    (s.memWrite a v).p = s.p := rfl
@[simp] theorem State.memWrite_q (s : State) (a : Nat) (v : Byte) :
    (s.memWrite a v).q = s.q := rfl
@[simp] theorem State.memWrite_dp (s : State) (a : Nat) (v : Byte) :
    (s.memWrite a v).dp = s.dp := rfl
@[simp] theorem State.memWrite_dq (s : State) (a : Nat) (v : Byte) :
    (s.memWrite a v).dq = s.dq := rfl
@[simp] theorem State.memWrite_qinv (s : State) (a : Nat) (v : Byte) :
    (s.memWrite a v).qinv = s.qinv := rfl
@[simp] theorem State.memWrite_bufLen (s : State) (a : Nat) (v : Byte) :
    (s.memWrite a v).bufLen = s.bufLen := rfl
@[simp] theorem State.memWrite_buf (s : State) (a : Nat) (v : Byte) :
    (s.memWrite a v).buf = Memory.writeIn s.bufLen s.buf a v := rfl
@[simp] theorem State.memWrite_inbox (s : State) (a : Nat) (v : Byte) :
    (s.memWrite a v).inbox = s.inbox := rfl
@[simp] theorem State.memWrite_reads (s : State) (a : Nat) (v : Byte) :
    (s.memWrite a v).reads = s.reads := rfl
@[simp] theorem State.memWrite_draws (s : State) (a : Nat) (v : Byte) :
    (s.memWrite a v).draws = s.draws := rfl
@[simp] theorem State.memWrite_epoch (s : State) (a : Nat) (v : Byte) :
    (s.memWrite a v).epoch = s.epoch := rfl

@[simp] theorem State.memWriteSeq_status (s : State) (a : Nat) (bs : List Byte) :
    (s.memWriteSeq a bs).status = s.status := rfl
@[simp] theorem State.memWriteSeq_cause (s : State) (a : Nat) (bs : List Byte) :
    (s.memWriteSeq a bs).cause = s.cause := rfl
@[simp] theorem State.memWriteSeq_einfo (s : State) (a : Nat) (bs : List Byte) :
    (s.memWriteSeq a bs).einfo = s.einfo := rfl
@[simp] theorem State.memWriteSeq_bytePos (s : State) (a : Nat) (bs : List Byte) :
    (s.memWriteSeq a bs).bytePos = s.bytePos := rfl
@[simp] theorem State.memWriteSeq_crcOff (s : State) (a : Nat) (bs : List Byte) :
    (s.memWriteSeq a bs).crcOff = s.crcOff := rfl
@[simp] theorem State.memWriteSeq_crcLen (s : State) (a : Nat) (bs : List Byte) :
    (s.memWriteSeq a bs).crcLen = s.crcLen := rfl
@[simp] theorem State.memWriteSeq_crcExp (s : State) (a : Nat) (bs : List Byte) :
    (s.memWriteSeq a bs).crcExp = s.crcExp := rfl
@[simp] theorem State.memWriteSeq_crcRes (s : State) (a : Nat) (bs : List Byte) :
    (s.memWriteSeq a bs).crcRes = s.crcRes := rfl
@[simp] theorem State.memWriteSeq_rlen (s : State) (a : Nat) (bs : List Byte) :
    (s.memWriteSeq a bs).rlen = s.rlen := rfl
@[simp] theorem State.memWriteSeq_n (s : State) (a : Nat) (bs : List Byte) :
    (s.memWriteSeq a bs).n = s.n := rfl
@[simp] theorem State.memWriteSeq_e (s : State) (a : Nat) (bs : List Byte) :
    (s.memWriteSeq a bs).e = s.e := rfl
@[simp] theorem State.memWriteSeq_p (s : State) (a : Nat) (bs : List Byte) :
    (s.memWriteSeq a bs).p = s.p := rfl
@[simp] theorem State.memWriteSeq_q (s : State) (a : Nat) (bs : List Byte) :
    (s.memWriteSeq a bs).q = s.q := rfl
@[simp] theorem State.memWriteSeq_dp (s : State) (a : Nat) (bs : List Byte) :
    (s.memWriteSeq a bs).dp = s.dp := rfl
@[simp] theorem State.memWriteSeq_dq (s : State) (a : Nat) (bs : List Byte) :
    (s.memWriteSeq a bs).dq = s.dq := rfl
@[simp] theorem State.memWriteSeq_qinv (s : State) (a : Nat) (bs : List Byte) :
    (s.memWriteSeq a bs).qinv = s.qinv := rfl
@[simp] theorem State.memWriteSeq_bufLen (s : State) (a : Nat) (bs : List Byte) :
    (s.memWriteSeq a bs).bufLen = s.bufLen := rfl
@[simp] theorem State.memWriteSeq_buf (s : State) (a : Nat) (bs : List Byte) :
    (s.memWriteSeq a bs).buf = Memory.writeSeqIn s.bufLen s.buf a bs := rfl
@[simp] theorem State.memWriteSeq_inbox (s : State) (a : Nat) (bs : List Byte) :
    (s.memWriteSeq a bs).inbox = s.inbox := rfl
@[simp] theorem State.memWriteSeq_reads (s : State) (a : Nat) (bs : List Byte) :
    (s.memWriteSeq a bs).reads = s.reads := rfl
@[simp] theorem State.memWriteSeq_draws (s : State) (a : Nat) (bs : List Byte) :
    (s.memWriteSeq a bs).draws = s.draws := rfl
@[simp] theorem State.memWriteSeq_epoch (s : State) (a : Nat) (bs : List Byte) :
    (s.memWriteSeq a bs).epoch = s.epoch := rfl

@[simp] theorem State.putCiphertext_status (s : State) (out : List Byte) :
    (s.putCiphertext out).status = s.status := rfl
@[simp] theorem State.putCiphertext_cause (s : State) (out : List Byte) :
    (s.putCiphertext out).cause = s.cause := rfl
@[simp] theorem State.putCiphertext_einfo (s : State) (out : List Byte) :
    (s.putCiphertext out).einfo = s.einfo := rfl
@[simp] theorem State.putCiphertext_bytePos (s : State) (out : List Byte) :
    (s.putCiphertext out).bytePos = BitVec.ofNat 32 (1 + out.length) := rfl
@[simp] theorem State.putCiphertext_crcOff (s : State) (out : List Byte) :
    (s.putCiphertext out).crcOff = s.crcOff := rfl
@[simp] theorem State.putCiphertext_crcLen (s : State) (out : List Byte) :
    (s.putCiphertext out).crcLen = s.crcLen := rfl
@[simp] theorem State.putCiphertext_crcExp (s : State) (out : List Byte) :
    (s.putCiphertext out).crcExp = s.crcExp := rfl
@[simp] theorem State.putCiphertext_crcRes (s : State) (out : List Byte) :
    (s.putCiphertext out).crcRes = s.crcRes := rfl
@[simp] theorem State.putCiphertext_rlen (s : State) (out : List Byte) :
    (s.putCiphertext out).rlen = BitVec.ofNat 32 out.length := rfl
@[simp] theorem State.putCiphertext_n (s : State) (out : List Byte) :
    (s.putCiphertext out).n = s.n := rfl
@[simp] theorem State.putCiphertext_e (s : State) (out : List Byte) :
    (s.putCiphertext out).e = s.e := rfl
@[simp] theorem State.putCiphertext_p (s : State) (out : List Byte) :
    (s.putCiphertext out).p = s.p := rfl
@[simp] theorem State.putCiphertext_q (s : State) (out : List Byte) :
    (s.putCiphertext out).q = s.q := rfl
@[simp] theorem State.putCiphertext_dp (s : State) (out : List Byte) :
    (s.putCiphertext out).dp = s.dp := rfl
@[simp] theorem State.putCiphertext_dq (s : State) (out : List Byte) :
    (s.putCiphertext out).dq = s.dq := rfl
@[simp] theorem State.putCiphertext_qinv (s : State) (out : List Byte) :
    (s.putCiphertext out).qinv = s.qinv := rfl
@[simp] theorem State.putCiphertext_bufLen (s : State) (out : List Byte) :
    (s.putCiphertext out).bufLen = s.bufLen := rfl
@[simp] theorem State.putCiphertext_buf (s : State) (out : List Byte) :
    (s.putCiphertext out).buf = Memory.writeSeqIn s.bufLen (Memory.writeIn s.bufLen s.buf 0 (BitVec.ofNat 8 out.length)) 1 out := rfl
@[simp] theorem State.putCiphertext_inbox (s : State) (out : List Byte) :
    (s.putCiphertext out).inbox = s.inbox := rfl
@[simp] theorem State.putCiphertext_reads (s : State) (out : List Byte) :
    (s.putCiphertext out).reads = s.reads := rfl
@[simp] theorem State.putCiphertext_draws (s : State) (out : List Byte) :
    (s.putCiphertext out).draws = s.draws := rfl
@[simp] theorem State.putCiphertext_epoch (s : State) (out : List Byte) :
    (s.putCiphertext out).epoch = s.epoch := rfl

@[simp] theorem State.putPlaintext_status (s : State) (out : List Byte) :
    (s.putPlaintext out).status = s.status := rfl
@[simp] theorem State.putPlaintext_cause (s : State) (out : List Byte) :
    (s.putPlaintext out).cause = s.cause := rfl
@[simp] theorem State.putPlaintext_einfo (s : State) (out : List Byte) :
    (s.putPlaintext out).einfo = s.einfo := rfl
@[simp] theorem State.putPlaintext_bytePos (s : State) (out : List Byte) :
    (s.putPlaintext out).bytePos = 0 := rfl
@[simp] theorem State.putPlaintext_crcOff (s : State) (out : List Byte) :
    (s.putPlaintext out).crcOff = s.crcOff := rfl
@[simp] theorem State.putPlaintext_crcLen (s : State) (out : List Byte) :
    (s.putPlaintext out).crcLen = s.crcLen := rfl
@[simp] theorem State.putPlaintext_crcExp (s : State) (out : List Byte) :
    (s.putPlaintext out).crcExp = s.crcExp := rfl
@[simp] theorem State.putPlaintext_crcRes (s : State) (out : List Byte) :
    (s.putPlaintext out).crcRes = s.crcRes := rfl
@[simp] theorem State.putPlaintext_rlen (s : State) (out : List Byte) :
    (s.putPlaintext out).rlen = BitVec.ofNat 32 out.length := rfl
@[simp] theorem State.putPlaintext_n (s : State) (out : List Byte) :
    (s.putPlaintext out).n = s.n := rfl
@[simp] theorem State.putPlaintext_e (s : State) (out : List Byte) :
    (s.putPlaintext out).e = s.e := rfl
@[simp] theorem State.putPlaintext_p (s : State) (out : List Byte) :
    (s.putPlaintext out).p = s.p := rfl
@[simp] theorem State.putPlaintext_q (s : State) (out : List Byte) :
    (s.putPlaintext out).q = s.q := rfl
@[simp] theorem State.putPlaintext_dp (s : State) (out : List Byte) :
    (s.putPlaintext out).dp = s.dp := rfl
@[simp] theorem State.putPlaintext_dq (s : State) (out : List Byte) :
    (s.putPlaintext out).dq = s.dq := rfl
@[simp] theorem State.putPlaintext_qinv (s : State) (out : List Byte) :
    (s.putPlaintext out).qinv = s.qinv := rfl
@[simp] theorem State.putPlaintext_bufLen (s : State) (out : List Byte) :
    (s.putPlaintext out).bufLen = s.bufLen := rfl
@[simp] theorem State.putPlaintext_buf (s : State) (out : List Byte) :
    (s.putPlaintext out).buf = Memory.writeSeqIn s.bufLen s.buf 0 out := rfl
@[simp] theorem State.putPlaintext_inbox (s : State) (out : List Byte) :
    (s.putPlaintext out).inbox = s.inbox := rfl
@[simp] theorem State.putPlaintext_reads (s : State) (out : List Byte) :
    (s.putPlaintext out).reads = s.reads := rfl
@[simp] theorem State.putPlaintext_draws (s : State) (out : List Byte) :
    (s.putPlaintext out).draws = s.draws := rfl
@[simp] theorem State.putPlaintext_epoch (s : State) (out : List Byte) :
    (s.putPlaintext out).epoch = s.epoch := rfl

@[simp] theorem State.deliver_status (s : State) (v : ReadValue) :
    (s.deliver v).status = s.status := rfl
@[simp] theorem State.deliver_cause (s : State) (v : ReadValue) :
    (s.deliver v).cause = s.cause := rfl
@[simp] theorem State.deliver_einfo (s : State) (v : ReadValue) :
    (s.deliver v).einfo = s.einfo := rfl
@[simp] theorem State.deliver_bytePos (s : State) (v : ReadValue) :
    (s.deliver v).bytePos = s.bytePos := rfl
@[simp] theorem State.deliver_crcOff (s : State) (v : ReadValue) :
    (s.deliver v).crcOff = s.crcOff := rfl
@[simp] theorem State.deliver_crcLen (s : State) (v : ReadValue) :
    (s.deliver v).crcLen = s.crcLen := rfl
@[simp] theorem State.deliver_crcExp (s : State) (v : ReadValue) :
    (s.deliver v).crcExp = s.crcExp := rfl
@[simp] theorem State.deliver_crcRes (s : State) (v : ReadValue) :
    (s.deliver v).crcRes = s.crcRes := rfl
@[simp] theorem State.deliver_rlen (s : State) (v : ReadValue) :
    (s.deliver v).rlen = s.rlen := rfl
@[simp] theorem State.deliver_n (s : State) (v : ReadValue) :
    (s.deliver v).n = s.n := rfl
@[simp] theorem State.deliver_e (s : State) (v : ReadValue) :
    (s.deliver v).e = s.e := rfl
@[simp] theorem State.deliver_p (s : State) (v : ReadValue) :
    (s.deliver v).p = s.p := rfl
@[simp] theorem State.deliver_q (s : State) (v : ReadValue) :
    (s.deliver v).q = s.q := rfl
@[simp] theorem State.deliver_dp (s : State) (v : ReadValue) :
    (s.deliver v).dp = s.dp := rfl
@[simp] theorem State.deliver_dq (s : State) (v : ReadValue) :
    (s.deliver v).dq = s.dq := rfl
@[simp] theorem State.deliver_qinv (s : State) (v : ReadValue) :
    (s.deliver v).qinv = s.qinv := rfl
@[simp] theorem State.deliver_bufLen (s : State) (v : ReadValue) :
    (s.deliver v).bufLen = s.bufLen := rfl
@[simp] theorem State.deliver_buf (s : State) (v : ReadValue) :
    (s.deliver v).buf = s.buf := rfl
@[simp] theorem State.deliver_inbox (s : State) (v : ReadValue) :
    (s.deliver v).inbox = s.inbox := rfl
@[simp] theorem State.deliver_reads (s : State) (v : ReadValue) :
    (s.deliver v).reads = s.reads ++ [v] := rfl
@[simp] theorem State.deliver_draws (s : State) (v : ReadValue) :
    (s.deliver v).draws = s.draws := rfl
@[simp] theorem State.deliver_epoch (s : State) (v : ReadValue) :
    (s.deliver v).epoch = s.epoch := rfl

@[simp] theorem State.afterReset_status (s : State) :
    s.afterReset.status = 0 := rfl
@[simp] theorem State.afterReset_cause (s : State) :
    s.afterReset.cause = 0 := rfl
@[simp] theorem State.afterReset_einfo (s : State) :
    s.afterReset.einfo = 0 := rfl
@[simp] theorem State.afterReset_bytePos (s : State) :
    s.afterReset.bytePos = 0 := rfl
@[simp] theorem State.afterReset_crcOff (s : State) :
    s.afterReset.crcOff = 0 := rfl
@[simp] theorem State.afterReset_crcLen (s : State) :
    s.afterReset.crcLen = 0 := rfl
@[simp] theorem State.afterReset_crcExp (s : State) :
    s.afterReset.crcExp = 0 := rfl
@[simp] theorem State.afterReset_crcRes (s : State) :
    s.afterReset.crcRes = 0 := rfl
@[simp] theorem State.afterReset_rlen (s : State) :
    s.afterReset.rlen = 0 := rfl
@[simp] theorem State.afterReset_n (s : State) :
    s.afterReset.n = zeroKey := rfl
@[simp] theorem State.afterReset_e (s : State) :
    s.afterReset.e = zeroKey := rfl
@[simp] theorem State.afterReset_p (s : State) :
    s.afterReset.p = zeroKey := rfl
@[simp] theorem State.afterReset_q (s : State) :
    s.afterReset.q = zeroKey := rfl
@[simp] theorem State.afterReset_dp (s : State) :
    s.afterReset.dp = zeroKey := rfl
@[simp] theorem State.afterReset_dq (s : State) :
    s.afterReset.dq = zeroKey := rfl
@[simp] theorem State.afterReset_qinv (s : State) :
    s.afterReset.qinv = zeroKey := rfl
@[simp] theorem State.afterReset_bufLen (s : State) :
    s.afterReset.bufLen = s.bufLen := rfl
@[simp] theorem State.afterReset_buf (s : State) :
    s.afterReset.buf = [] := rfl
@[simp] theorem State.afterReset_inbox (s : State) :
    s.afterReset.inbox = s.inbox := rfl
@[simp] theorem State.afterReset_reads (s : State) :
    s.afterReset.reads = s.reads := rfl
@[simp] theorem State.afterReset_draws (s : State) :
    s.afterReset.draws = s.draws := rfl
@[simp] theorem State.afterReset_epoch (s : State) :
    s.afterReset.epoch = s.epoch + 1 := rfl

@[simp] theorem zeroKey_toNat {w : Nat} : (zeroKey : BitVec w).toNat = 0 := rfl

end Sys2Proof.Machine
end

