-- ==== Sys2Proof/Laws/Ops.lean ====
section
/-! SUPPORT. What each shared operation does, said once: the flags, buffer reads and writes, key windows, fault entry, reset. -/

namespace Sys2Proof.Machine

/-! ### Flags -/

@[simp] theorem State.setErr_err (s : State) : s.setErr.err = true := by
  simp [State.err, errMask]

@[simp] theorem State.setErr_matched (s : State) : s.setErr.matched = s.matched := by
  simp [State.matched, errMask]

@[simp] theorem State.clearErr_err (s : State) : s.clearErr.err = false := by
  simp [State.err, errMask]

@[simp] theorem State.clearErr_matched (s : State) : s.clearErr.matched = s.matched := by
  simp [State.matched, errMask]

@[simp] theorem State.setMatch_err (b : Bool) (s : State) : (s.setMatch b).err = s.err := by
  cases b <;> simp [State.err, matchMask]

@[simp] theorem State.setMatch_matched (b : Bool) (s : State) : (s.setMatch b).matched = b := by
  cases b <;> simp [State.matched, matchMask]

@[simp] theorem State.nextDraw_err (s : State) : s.nextDraw.err = s.err := rfl

@[simp] theorem State.nextDraw_matched (s : State) : s.nextDraw.matched = s.matched := rfl

@[simp] theorem State.putCiphertext_err (s : State) (out : List Byte) : (s.putCiphertext out).err = s.err := rfl

@[simp] theorem State.putPlaintext_err (s : State) (out : List Byte) : (s.putPlaintext out).err = s.err := rfl

@[simp] theorem State.afterReset_err (s : State) : s.afterReset.err = false := by
  simp [State.err]

@[simp] theorem State.afterReset_matched (s : State) : s.afterReset.matched = false := by
  simp [State.matched]

/-- Fault entry sets `ERR` and leaves `MATCH` (`60_exceptions.md` R144). -/
@[simp] theorem State.raise_err (s : State) (f : EngineFault) (w : Word) : (s.raise f w).err = true :=
  s.setErr_err

@[simp] theorem State.raise_matched (s : State) (f : EngineFault) (w : Word) :
    (s.raise f w).matched = s.matched :=
  s.setErr_matched

/-- Fault entry, as one equation of states (R144). -/
theorem State.raise_eq (s : State) (f : EngineFault) (w : Word) :
    s.raise f w = { s with status := s.status ||| errMask, cause := f.code, einfo := w } := rfl

/-- `clrerr`, in one lemma (R134): the state afterwards, whichever word was written. -/
theorem State.writeStatus_spec (s : State) (v : Word) :
    (s.writeStatus v).err = (s.err && !v.getLsbD 0) ∧ (s.writeStatus v).matched = s.matched ∧
      s.writeStatus v = { s with status := (s.writeStatus v).status } := by
  unfold State.writeStatus
  split
  · rename_i h
    exact ⟨by rw [h]; simp, by simp, rfl⟩
  · rename_i h
    exact ⟨by rw [Bool.eq_false_iff.2 h]; simp, rfl, rfl⟩

/-! ### The buffer -/

/-- One byte of the buffer after `MemWrite` (`20_memory.md` R45). -/
theorem State.bufByte_memWrite (s : State) (a k : Nat) (v : Byte) :
    (s.memWrite a v).bufByte k = if k = a ∧ a < s.bufLen then v else s.bufByte k := by
  simp only [State.bufByte, State.memWrite_buf, State.memWrite_epoch, Memory.read_writeIn]
  split <;> rfl

/-- One byte of the buffer after `MemWriteSeq`. -/
theorem State.bufByte_memWriteSeq (s : State) (a k : Nat) (bs : List Byte) :
    (s.memWriteSeq a bs).bufByte k =
      if a ≤ k ∧ k < a + bs.length ∧ k < s.bufLen then bs.getD (k - a) 0 else s.bufByte k := by
  simp only [State.bufByte, State.memWriteSeq_buf, State.memWriteSeq_epoch, Memory.read_writeSeqIn]
  split
  · rename_i h
    have hl : k - a < bs.length := by omega
    simp [hl]
  · rfl

/-- `MemRead` inside the buffer. -/
theorem State.memRead_of_lt {s : State} {a : Nat} (h : a < s.bufLen) : s.memRead a = s.bufByte a := if_pos h

/-- `MemRead` beyond the buffer is a free byte (R44). -/
theorem State.memRead_of_ge {s : State} {a : Nat} (h : s.bufLen ≤ a) : s.memRead a = Config.anyByte s.draws a :=
  if_neg (by omega)

@[simp] theorem State.memReadSeq_length (s : State) (a n : Nat) : (s.memReadSeq a n).length = n := by
  induction n generalizing a with
  | zero => rfl
  | succ n ih => simp [State.memReadSeq, ih]

/-- `MemReadSeq` as the list of its `MemRead`s. -/
theorem State.memReadSeq_eq_map (s : State) (a n : Nat) :
    s.memReadSeq a n = (List.range n).map fun i => s.memRead (a + i) := by
  induction n generalizing a with
  | zero => rfl
  | succ n ih =>
    rw [State.memReadSeq, ih, List.range_succ_eq_map, List.map_cons, List.map_map]
    congr 1
    refine List.map_congr_left fun i _ => ?_
    show s.memRead (a + 1 + i) = s.memRead (a + (i + 1))
    rw [Nat.add_assoc, Nat.add_comm 1 i]

/-- The buffer after RSAENC's rewriting (`41_rsa.md` R110). -/
theorem State.bufByte_putCiphertext (s : State) (out : List Byte) (k : Nat) :
    (s.putCiphertext out).bufByte k =
      if s.bufLen ≤ k then s.bufByte k
      else if k = 0 then BitVec.ofNat 8 out.length
      else if k ≤ out.length then out.getD (k - 1) 0
      else s.bufByte k := by
  have h := State.bufByte_memWriteSeq (s.memWrite 0 (BitVec.ofNat 8 out.length)) 1 k out
  rw [State.bufByte_memWrite, State.memWrite_bufLen] at h
  have e : (s.putCiphertext out).bufByte k =
      ((s.memWrite 0 (BitVec.ofNat 8 out.length)).memWriteSeq 1 out).bufByte k := rfl
  rw [e, h]
  split_ifs <;> first | rfl | omega

/-- The buffer after RSADEC's rewriting (`41_rsa.md` R111). -/
theorem State.bufByte_putPlaintext (s : State) (out : List Byte) (k : Nat) :
    (s.putPlaintext out).bufByte k =
      if s.bufLen ≤ k then s.bufByte k
      else if k < out.length then out.getD k 0
      else s.bufByte k := by
  have h := State.bufByte_memWriteSeq s 0 k out
  have e : (s.putPlaintext out).bufByte k = (s.memWriteSeq 0 out).bufByte k := rfl
  rw [e, h]
  simp only [Nat.zero_le, true_and, Nat.zero_add, Nat.sub_zero]
  split_ifs <;> first | rfl | omega

/-! ### Key windows -/

/-- Bit `i` of word `j` of a window is bit `32j + i` of the register (`10_state.md` R23). -/
theorem getLsbD_windowRead {w : Nat} (v : BitVec w) (j i : Nat) :
    (windowRead v j).getLsbD i = (decide (i < 32) && v.getLsbD (32 * j + i)) := by
  simp [windowRead]

/-- A bit of the register after a write of word `j` (R23). -/
theorem getLsbD_windowWrite {w : Nat} (v : BitVec w) (j : Nat) (x : Word) (i : Nat) :
    (windowWrite v j x).getLsbD i =
      (decide (i < w) && if 32 * j ≤ i ∧ i < 32 * j + 32 then x.getLsbD (i - 32 * j) else v.getLsbD i) := by
  by_cases hw : i < w
  · simp only [windowWrite, BitVec.getLsbD_or, BitVec.getLsbD_and, BitVec.getLsbD_not,
      BitVec.getLsbD_shiftLeft, BitVec.getLsbD_setWidth, hw, decide_true, Bool.true_and]
    by_cases h1 : i < 32 * j
    · rw [if_neg (by omega)]
      simp [h1]
    · by_cases h2 : i < 32 * j + 32
      · rw [if_pos ⟨by omega, h2⟩]
        have hb : (0xFFFFFFFF#32).getLsbD (i - 32 * j) = true := by
          have : i - 32 * j < 32 := by omega
          rw [show (0xFFFFFFFF#32) = BitVec.allOnes 32 by decide, BitVec.getLsbD_allOnes]
          simpa using this
        have hs : i - 32 * j < w := by omega
        simp [h1, hb, hs]
      · rw [if_neg (by omega)]
        have h3 : 32 ≤ i - 32 * j := by omega
        simp [BitVec.getLsbD_of_ge _ _ h3]
  · rw [BitVec.getLsbD_of_ge _ _ (by omega)]
    simp [hw]

/-! ### Fault codes -/

@[simp] theorem EngineFault.code_illegalCmd : EngineFault.illegalCmd.code = 1 := rfl

@[simp] theorem EngineFault.code_arithFault : EngineFault.arithFault.code = 2 := rfl

end Sys2Proof.Machine
end

