-- ==== Sys2Proof/Laws/PerInstr.lean ====
section
/-! SUPPORT. Per-instruction laws: every command's word has its row's bits of the opcode map (`30_encoding.md` R63). -/

namespace Sys2Proof.Laws

/-- The word of a well-formed command, masked, is its row's `match` (R63). -/
def MatchMask.Statement (i : Instr) : Prop := i.wellFormed = true → encode i &&& rowMask i = rowMatch i

theorem MatchMask.nop : MatchMask.Statement .nop := fun _ => rfl

theorem MatchMask.getcrc : MatchMask.Statement .getcrc := fun _ => rfl

theorem MatchMask.checkcrc (d : Bool) : MatchMask.Statement (.checkcrc d) := fun _ => by cases d <;> rfl

theorem MatchMask.rsaenc : MatchMask.Statement .rsaenc := fun _ => rfl

theorem MatchMask.rsadec : MatchMask.Statement .rsadec := fun _ => rfl

end Sys2Proof.Laws
end

