-- ==== Sys2Proof/Laws/Step.lean ====
section
/-! SUPPORT. What a step, a command issue and each command can do: the inversion lemmas that proofs cite instead of unfolding. -/

namespace Sys2Proof.Machine

theorem step_nil {s : State} (h : s.inbox = []) : step s = .next s := by
  simp [step, State.takeNext, h]

theorem step_cons {s : State} {a : HostAction} {rest : List HostAction} (h : s.inbox = a :: rest) :
    step s = ({ s with inbox := rest } : State).takeAction a := by
  simp [step, State.takeNext, h]

/-- The host's run, one step at a time. -/
theorem run_succ_of_next (M : Host.Core) {k : Nat} {s u : M.State} (h : M.step s = .next u) :
    M.run (k + 1) s = M.run k u := by
  simp only [Host.Core.run, h]

@[simp] theorem offsetOf_cmd : offsetOf (.scalar .cmd) = 0#22 := rfl

@[simp] theorem offsetOf_status : offsetOf (.scalar .status) = 4#22 := rfl

@[simp] theorem wordTarget_cmd : wordTarget 0#22 = .ok (.scalar .cmd) := rfl

@[simp] theorem wordTarget_status : wordTarget 4#22 = .ok (.scalar .status) := rfl

/-- A write to `CMD` issues a command (`10_state.md` R13). -/
theorem takeAction_cmd (s : State) (w : Word) : s.takeAction (.wr32 0#22 w) = s.issue w := rfl

/-- Everything command issue can do (`42_system.md` R135). -/
theorem issue_cases {s t : State} {w : Word} (h : s.issue w = .next t) :
    (s.err = true ∧ t = s) ∨
    (s.err = false ∧ ∃ e, decode w = .error e ∧ t = s.raise .illegalCmd w) ∨
    (s.err = false ∧ ∃ i, decode w = .ok i ∧ exec i s = .next t) := by
  unfold State.issue at h
  split at h
  · rename_i he
    cases h
    exact .inl ⟨he, rfl⟩
  · rename_i he
    have he : s.err = false := by simpa using he
    split at h
    · rename_i e hd
      cases h
      exact .inr (.inl ⟨he, e, hd, rfl⟩)
    · rename_i i hd
      exact .inr (.inr ⟨he, i, hd, h⟩)

/-- Everything RSAENC can do (`41_rsa.md` R110). -/
theorem execRsaenc_cases (s : State) :
    (s.n.toNat = 0 ∧ exec .rsaenc s = .next (s.raise .arithFault 0x00000010#32)) ∨
    (s.n.toNat ≠ 0 ∧ exec .rsaenc s = .next (s.putCiphertext (natToBytes s.encryptNat)).nextDraw) := by
  by_cases h : s.n.toNat = 0
  · exact .inl ⟨h, if_pos h⟩
  · exact .inr ⟨h, if_neg h⟩

/-- Everything RSADEC can do (`41_rsa.md` R111). -/
theorem execRsadec_cases (s : State) :
    ((s.p.toNat = 0 ∨ s.q.toNat = 0) ∧ exec .rsadec s = .next (s.raise .arithFault 0x00000011#32)) ∨
    (¬(s.p.toNat = 0 ∨ s.q.toNat = 0) ∧
      exec .rsadec s = .next (s.putPlaintext (natToBytes s.decryptNat)).nextDraw) := by
  by_cases h : s.p.toNat = 0 ∨ s.q.toNat = 0
  · exact .inl ⟨h, if_pos h⟩
  · exact .inr ⟨h, if_neg h⟩

/-- Everything one host action that goes on can do. -/
theorem takeAction_cases {s t : State} {a : HostAction} (h : s.takeAction a = .next t) :
    (∃ off x, a = .rd32 off ∧ wordTarget off = .ok x ∧ t = s.deliver (.word (s.readTarget x))) ∨
    (∃ off w, a = .wr32 off w ∧ wordTarget off = .ok (.scalar .cmd) ∧ s.issue w = .next t) ∨
    (∃ off v r, a = .wr32 off v ∧ wordTarget off = .ok (.scalar r) ∧ r ≠ .cmd ∧ t = s.writeScalar r v) ∨
    (∃ off v k j, a = .wr32 off v ∧ wordTarget off = .ok (.keyWord k j) ∧ t = s.writeKeyWord k j v) ∨
    (∃ off k, a = .rd8 off ∧ byteTarget off = .ok k ∧ t = (s.deliver (.byte (s.memRead k))).nextDraw) ∨
    (∃ off b k, a = .wr8 off b ∧ byteTarget off = .ok k ∧ t = s.memWrite k b) ∨
    (a = .reset ∧ t = s.afterReset) := by
  have stop : ∀ e off, busStop e off ≠ .next t := by intro e off; cases e <;> simp [busStop]
  cases a with
  | rd32 off =>
    simp only [State.takeAction] at h
    split at h
    · exact absurd h (stop _ _)
    · cases h
      exact .inl ⟨off, _, rfl, ‹_›, rfl⟩
  | wr32 off v =>
    simp only [State.takeAction] at h
    split at h
    · exact absurd h (stop _ _)
    · rename_i x hx
      cases x with
      | scalar r =>
        by_cases hr : r = .cmd
        · subst hr
          exact .inr (.inl ⟨off, v, rfl, hx, h⟩)
        · refine .inr (.inr (.inl ⟨off, v, r, rfl, hx, hr, ?_⟩))
          cases r <;> first | exact absurd rfl hr | (cases h; rfl)
      | keyWord k j =>
        cases h
        exact .inr (.inr (.inr (.inl ⟨off, v, k, j, rfl, hx, rfl⟩)))
  | rd8 off =>
    simp only [State.takeAction] at h
    split at h
    · exact absurd h (stop _ _)
    · cases h
      exact .inr (.inr (.inr (.inr (.inl ⟨off, _, rfl, ‹_›, rfl⟩))))
  | wr8 off b =>
    simp only [State.takeAction] at h
    split at h
    · exact absurd h (stop _ _)
    · cases h
      exact .inr (.inr (.inr (.inr (.inr (.inl ⟨off, b, _, rfl, ‹_›, rfl⟩)))))
  | otherWidth bits off => exact absurd h (stop _ _)
  | reset =>
    cases h
    exact .inr (.inr (.inr (.inr (.inr (.inr ⟨rfl, rfl⟩)))))

/-- What a command can do to `STATUS`, `CAUSE` and `EINFO`: nothing, CHECKCRC's `MATCH`, or a cipher command's fault entry. -/
theorem exec_flags {i : Instr} {s t : State} (h : exec i s = .next t) :
    (t.status = s.status ∧ t.cause = s.cause ∧ t.einfo = s.einfo) ∨
    (∃ d b, i = .checkcrc d ∧ t.status = (s.setMatch b).status ∧ t.cause = s.cause ∧ t.einfo = s.einfo) ∨
    ((i = .rsaenc ∨ i = .rsadec) ∧ t = s.raise .arithFault (encode i)) := by
  cases i with
  | nop => cases h; exact .inl ⟨rfl, rfl, rfl⟩
  | getcrc => cases h; exact .inl ⟨rfl, rfl, rfl⟩
  | checkcrc d => cases h; exact .inr (.inl ⟨d, _, rfl, rfl, rfl, rfl⟩)
  | rsaenc =>
    rcases execRsaenc_cases s with ⟨_, hx⟩ | ⟨_, hx⟩ <;> rw [hx] at h <;> cases h
    · exact .inr (.inr ⟨.inl rfl, rfl⟩)
    · exact .inl ⟨rfl, rfl, rfl⟩
  | rsadec =>
    rcases execRsadec_cases s with ⟨_, hx⟩ | ⟨_, hx⟩ <;> rw [hx] at h <;> cases h
    · exact .inr (.inr ⟨.inr rfl, rfl⟩)
    · exact .inl ⟨rfl, rfl, rfl⟩

end Sys2Proof.Machine
end

