-- ==== Sys2Proof/Machine/HostProgram.lean ====
section
/-! DEFINITION. The host notation of `30_encoding.md` R67 and the pseudo-operations of R68, as lists of host actions. The engine
knows nothing of them; they say how the spec's programs are written down for `State.inbox`. -/

namespace Sys2Proof.Machine

/-- `rd REG`. -/
def rd (t : WordTarget) : HostAction := .rd32 (offsetOf t)

/-- `wr REG, v`. -/
def wr (t : WordTarget) (v : Word) : HostAction := .wr32 (offsetOf t) v

/-- `rdb k`. -/
def rdb (k : Nat) : HostAction := .rd8 (bufferOffset k)

/-- `wrb k, b`. -/
def wrb (k : Nat) (b : Byte) : HostAction := .wr8 (bufferOffset k) b

/-- `cmd.raw w`: the word `w` written to `CMD`. -/
def cmdRaw (w : Word) : HostAction := wr (.scalar .cmd) w

/-- `cmd`: a command's word written to `CMD`. -/
def cmd (i : Instr) : HostAction := cmdRaw (encode i)

/-- `clrerr`. -/
def clrerr : HostAction := wr (.scalar .status) 0x00000001#32

/-- `getcrc off, len`. -/
def getcrcOp (off len : Word) : List HostAction :=
  [wr (.scalar .crcOff) off, wr (.scalar .crcLen) len, cmd .getcrc, rd (.scalar .crcRes)]

/-- `checkcrc off, len, exp`. -/
def checkcrcOp (off len expected : Word) : List HostAction :=
  [wr (.scalar .crcOff) off, wr (.scalar .crcLen) len, wr (.scalar .crcExp) expected, cmd (.checkcrc false),
    rd (.scalar .status)]

/-- `checkcrc off, len`: the default expected value. -/
def checkcrcDefaultOp (off len : Word) : List HostAction :=
  [wr (.scalar .crcOff) off, wr (.scalar .crcLen) len, cmd (.checkcrc true), rd (.scalar .status)]

/-- `fill k, b0 b1 ...`. -/
def fillOp (k : Nat) : List Byte → List HostAction
  | [] => []
  | b :: bs => wrb k b :: fillOp (k + 1) bs

/-- `setkey K, v`: every word of the window, least significant first. -/
def setkeyOp (k : KeyReg) (v : Nat) : List HostAction :=
  (List.range (keyWords k)).map fun j => wr (.keyWord k j) (BitVec.ofNat 32 (v / 2 ^ (32 * j)))

/-- `encrypt`. -/
def encryptOp : List HostAction := [cmd .rsaenc]

/-- `decrypt`. -/
def decryptOp : List HostAction := [cmd .rsadec]

end Sys2Proof.Machine
end

