-- ==== Sys2Proof/Tests/Slice0.lean ====
section
/-! SUPPORT. Tests on the spec's own vectors (`spec/95_test_vectors.md`), one step each; the smoke test of the well-formedness
checks; and for every statement with hypotheses a witness that meets them. -/

namespace Sys2Proof.Tests

/- One theorem after the other: many at once take more threads than the check allows. -/
set_option Elab.async false

open Sys2Proof Sys2Proof.Machine

/-! ### Helpers -/

/-- The next state of an outcome (the reset state of an empty buffer where there is none). -/
def nextOf (o : Host.Outcome State Fault Refusal) : State :=
  match o with
  | .next t => t
  | .fault _ => State.resetWith 0
  | .refused _ => State.resetWith 0

def isNext (o : Host.Outcome State Fault Refusal) : Bool :=
  match o with
  | .next _ => true
  | .fault _ => false
  | .refused _ => false

theorem next_nextOf {o : Host.Outcome State Fault Refusal} (h : isNext o = true) : o = .next (nextOf o) := by
  cases o <;> first | rfl | cases h

/-- A buffer of the given length holding the given bytes from index 0. -/
def withBytes (len : Nat) (bs : List Byte) : State := (State.resetWith len).memWriteSeq 0 bs

/-- Toy key K1 of `95_test_vectors.md` section 3. -/
def keyK1 (s : State) : State := { s with n := 3233, e := 17, p := 61, q := 53, dp := 53, dq := 49, qinv := 38 }

/-- The 128-bit key K2. -/
def keyK2 (s : State) : State :=
  { s with n := 0x8762A450327FA018D5CC77080420EE67, e := 0x10001, p := 0x8C2FF3302F051967, q := 0xF73B202EDECF6301,
           dp := 0x046F2BD91553AAF7, dq := 0x387BE4AD70B05701, qinv := 0x46115F61C0B1013B }

/-- "123456789" in a buffer of 16 bytes. -/
def digits : State := withBytes 16 [0x31, 0x32, 0x33, 0x34, 0x35, 0x36, 0x37, 0x38, 0x39]

/-- The state with one host action pending. -/
def withAction (s : State) (a : HostAction) : State := { s with inbox := [a] }

/-! ### Decoding: the words written out bit by bit from `30_encoding.md` R61, R63 -/

theorem test_decode_nop : decode 0b00000000000000000000000_0_00000000#32 = .ok .nop := by decide

theorem test_decode_getcrc : decode 0b00000000000000000000000_0_00000001#32 = .ok .getcrc := by decide

theorem test_decode_checkcrc : decode 0b00000000000000000000000_0_00000010#32 = .ok (.checkcrc false) := by decide

theorem test_decode_checkcrc_default : decode 0b00000000000000000000000_1_00000010#32 = .ok (.checkcrc true) := by decide

theorem test_decode_rsaenc : decode 0b00000000000000000000000_0_00010000#32 = .ok .rsaenc := by decide

theorem test_decode_rsadec : decode 0b00000000000000000000000_0_00010001#32 = .ok .rsadec := by decide

theorem test_decode_illegal : decode 0x00000202#32 = .error .zeroFieldNotZero ∧
    decode 0x00000101#32 = .error .defaultFlagNotAllowed ∧ decode 0x00000012#32 = .error .reservedOpcode := by decide

theorem test_rows_disjoint : [Instr.nop, .getcrc, .checkcrc false, .rsaenc, .rsadec].Pairwise
    (fun i j => (rowMatch i ^^^ rowMatch j) &&& rowMask i &&& rowMask j ≠ 0) := by decide

theorem test_decodeTableWord : decodeTableWord 32 0x102 = some (.checkcrc true) ∧ decodeTableWord 32 0x103 = none := by decide

/-! ### Well-formedness smoke test: an ill-formed action for each check -/

theorem test_wf_reserved : (HostAction.rd32 0x28#22).wellFormed = false ∧ (HostAction.wr32 0x580#22 0).wellFormed = false := by
  decide

theorem test_wf_misaligned : (HostAction.rd32 0x02#22).wellFormed = false := by decide

theorem test_wf_wrong_width : (HostAction.rd8 0x10#22).wellFormed = false ∧ (HostAction.rd32 0x200000#22).wellFormed = false ∧
    (HostAction.otherWidth 16 0x10#22).wellFormed = false := by decide

theorem test_wf_good : (HostAction.rd32 0x24#22).wellFormed = true ∧ (HostAction.wr8 0x3FFFFF#22 0).wellFormed = true := by
  decide

/-! ### Commands -/

/-- V-SYS-14. -/
theorem test_nop : nextOf (exec .nop digits) = digits := by decide +kernel

/-- V-CRC-1. -/
theorem test_getcrc_check_string : (nextOf (exec .getcrc { digits with crcLen := 9 })).crcRes = 0xCBF43926#32 := by
  decide +kernel

/-- V-CRC-6: the end index is absolute. -/
theorem test_getcrc_end_index :
    (nextOf (exec .getcrc { digits with crcOff := 2, crcLen := 4 })).crcRes = 0x9406837A#32 := by decide +kernel

/-- V-CRC-9. -/
theorem test_checkcrc_match :
    (nextOf (exec (.checkcrc false) { digits with crcLen := 9, crcExp := 0xCBF43926 })).status = 0x00000002#32 := by
  decide +kernel

/-- V-CRC-10, V-CRC-11: `D = 1` compares with 0, and a mismatch clears an earlier `MATCH`. -/
theorem test_checkcrc_default_mismatch :
    (nextOf (exec (.checkcrc true) { digits with crcLen := 9, crcExp := 0xCBF43926, status := 2 })).status = 0x00000000#32 := by
  decide +kernel

/-- V-RSA-17: the write past the end is dropped. -/
theorem test_rsaenc_short_buffer :
    (let t := nextOf (exec .rsaenc { keyK1 (withBytes 2 [0x41, 0xAA]) with bytePos := 1 })
     (t.buf, t.bytePos, t.rlen) = ([(0, 0x02), (1, 0x0A)], 3#32, 2#32)) := by decide +kernel

/-- V-RSA-18. -/
theorem test_rsaenc_128_bit :
    (let t := nextOf (exec .rsaenc
        { keyK2 (withBytes 17 [0x68, 0x65, 0x6C, 0x6C, 0x6F, 0x2C, 0x20, 0x72, 0x73, 0x61]) with bytePos := 10 })
     t.buf.map Prod.snd = [0x10, 0x50, 0x16, 0x8E, 0x42, 0x68, 0x05, 0xCD, 0x32, 0x60, 0x7A, 0xF7, 0x8A, 0xF5, 0x77, 0x93, 0x77] ∧
     t.bytePos = 17) := by decide +kernel

/-- V-RSA-14: the block is read at the cursor; the difference `mP - mQ` is negative. -/
theorem test_rsadec_at_cursor :
    (let t := nextOf (exec .rsadec { keyK1 (withBytes 8 [0xEE, 0xEE, 0x02, 0x0A, 0xE6]) with bytePos := 2 })
     (t.buf.map Prod.snd, t.bytePos, t.rlen) = ([0x41, 0xEE, 0x02, 0x0A, 0xE6], 0#32, 1#32)) := by decide +kernel

/-- V-RSA-19. -/
theorem test_rsadec_128_bit :
    (let t := nextOf (exec .rsadec (keyK2 (withBytes 17
        [0x10, 0x50, 0x16, 0x8E, 0x42, 0x68, 0x05, 0xCD, 0x32, 0x60, 0x7A, 0xF7, 0x8A, 0xF5, 0x77, 0x93, 0x77])))
     t.buf.map Prod.snd = [0x68, 0x65, 0x6C, 0x6C, 0x6F, 0x2C, 0x20, 0x72, 0x73, 0x61, 0x7A, 0xF7, 0x8A, 0xF5, 0x77, 0x93, 0x77] ∧
     t.rlen = 10) := by decide +kernel

/-! ### Faults and host actions -/

/-- V-RSA-13. -/
theorem test_arith_fault :
    (let t := nextOf (step (withAction { keyK1 digits with q := 0 } (cmd .rsadec)))
     (t.status, t.cause, t.einfo) = (1#32, 2#32, 0x11#32)) := by decide +kernel

/-- V-SYS-6, from the reset state whatever its `BUFLEN`. -/
theorem test_illegal_command :
    (let t := nextOf (step (State.reset.withFetchWord 32 3))
     (t.status, t.cause, t.einfo) = (1#32, 1#32, 3#32)) := by decide +kernel

/-- V-SYS-7: dropped, not a second fault. -/
theorem test_error_lock :
    nextOf (step (withAction { digits with status := 1, cause := 1, einfo := 3 } (cmdRaw 0xDEADBEEF))) =
      { digits with status := 1, cause := 1, einfo := 3 } := by decide +kernel

/-- V-SYS-11. -/
theorem test_clrerr : (nextOf (step (withAction { digits with status := 3 } clrerr))).status = 2#32 := by decide +kernel

/-- V-SYS-2, V-SYS-3. -/
theorem test_key_words :
    (nextOf (step (withAction digits (wr (.keyWord .n 63) 0xFFFFFFFF)))).readKeyWord .n 63 = 0x00FFFFFF#32 ∧
    (nextOf (step (withAction digits (wr (.keyWord .p 31) 0xFFFFFFFF)))).readKeyWord .p 31 = 0xFFFFFFFF#32 := by
  decide +kernel

/-- V-SYS-4. -/
theorem test_read_only_register :
    (nextOf (step (withAction { digits with crcRes := 0xCBF43926 } (wr (.scalar .crcRes) 0)))).crcRes = 0xCBF43926#32 := by
  decide +kernel

/-- V-SYS-12: host accesses are not locked by `ERR`. -/
theorem test_buffer_access_under_error :
    (nextOf (step (withAction { digits with status := 1 } (wrb 0 0x55)))).buf.head? = some (0, 0x55#8) ∧
    (nextOf (step (withAction { digits with status := 1 } (rdb 0)))).reads = [.byte 0x31] := by decide +kernel

/-- V-SYS-13: beyond the buffer a write is dropped. -/
theorem test_write_beyond_buffer : (nextOf (step (withAction digits (wrb 16 0x55)))).buf = digits.buf := by decide +kernel

/-- A pseudo-operation of `30_encoding.md` R68: K1's exponent as `setkey` writes it. -/
theorem test_setkey_first_word : (setkeyOp .e 17).head? = some (.wr32 0x200#22 17#32) ∧ (setkeyOp .e 17).length = 64 := by decide

/-! ### Witnesses: every statement's hypotheses are met by something -/

theorem witness_DecodeEncodeExact : (Instr.checkcrc true).wellFormed = true ∧ decode 0x102#32 = .ok (.checkcrc true) := by decide

theorem witness_StepRunsDecodedCommand :
    ∃ s : State, s.inbox = .wr32 0#22 0x102#32 :: [] ∧ s.err = false ∧ decode 0x102#32 = .ok (.checkcrc true) ∧
      decodeTableWord 32 0x102 = some (.checkcrc true) :=
  ⟨withAction digits (cmd (.checkcrc true)), by decide +kernel⟩

theorem witness_CommandIssuePriority_locked :
    ∃ s : State, s.inbox = .wr32 0#22 1#32 :: [] ∧ s.err = true :=
  ⟨withAction { digits with status := 1 } (cmd .getcrc), by decide +kernel⟩

theorem witness_CommandIssuePriority_illegal :
    ∃ s : State, s.inbox = .wr32 0#22 3#32 :: [] ∧ s.err = false ∧ ∀ i, decode 3#32 ≠ .ok i :=
  ⟨withAction digits (cmdRaw 3), by decide, by decide,
    fun i h => by rw [show decode 3#32 = .error .reservedOpcode by decide] at h; cases h⟩

theorem witness_CommandIssuePriority_arith :
    (∃ s : State, s.inbox = .wr32 0#22 0x10#32 :: [] ∧ s.err = false ∧ decode 0x10#32 = .ok .rsaenc ∧ s.n.toNat = 0) ∧
    (∃ s : State, s.inbox = .wr32 0#22 0x11#32 :: [] ∧ s.err = false ∧ decode 0x11#32 = .ok .rsadec ∧
      s.p.toNat ≠ 0 ∧ s.q.toNat = 0) :=
  ⟨⟨withAction digits (cmd .rsaenc), by decide +kernel⟩,
   ⟨withAction { keyK1 digits with q := 0 } (cmd .rsadec), by decide +kernel⟩⟩

theorem witness_CommandIssuePriority_completes :
    ∃ s : State, s.inbox = .wr32 0#22 0x10#32 :: [] ∧ s.err = false ∧ decode 0x10#32 = .ok .rsaenc ∧
      ¬(decode 0x10#32 = .ok .rsaenc ∧ s.n.toNat = 0 ∨ decode 0x10#32 = .ok .rsadec ∧ (s.p.toNat = 0 ∨ s.q.toNat = 0)) :=
  ⟨withAction (keyK1 digits) (cmd .rsaenc), by decide +kernel⟩

theorem witness_IllegalWordRaisesIllegalCmd :
    (∃ s : State, s.inbox = .wr32 0#22 0x80000001#32 :: [] ∧ s.err = false ∧ (0x80000001#32) >>> 9 ≠ 0) ∧
    (∃ s : State, s.inbox = .wr32 0#22 0x101#32 :: [] ∧ s.err = false ∧
      (0x101#32).getLsbD 8 = true ∧ 0x101#32 &&& 0xFF#32 ≠ 0x02#32) ∧
    (∃ s : State, s.inbox = .wr32 0#22 0x12#32 :: [] ∧ s.err = false ∧
      0x12#32 &&& 0xFF#32 ∉ [0x00#32, 0x01#32, 0x02#32, 0x10#32, 0x11#32]) :=
  ⟨⟨withAction digits (cmdRaw 0x80000001), by decide⟩, ⟨withAction digits (cmdRaw 0x101), by decide⟩,
   ⟨withAction digits (cmdRaw 0x12), by decide⟩⟩

theorem witness_IdleEngineStays : digits.inbox = [] := by decide

theorem witness_OneActionPerStep : ∃ s t : State, step s = .next t ∧ s.inbox ≠ [] :=
  ⟨withAction digits (cmd .nop), _, next_nextOf (by decide +kernel), by decide⟩

theorem witness_WellFormedRunsReachTheirEnd : ∃ s : State, s.inbox.length = 4 ∧ ∀ a ∈ s.inbox, a.wellFormed = true :=
  ⟨{ digits with inbox := getcrcOp 0 9 }, by decide⟩

theorem witness_NopChangesNothing : ∃ s : State, s.inbox = .wr32 0#22 0x00000000#32 :: [] :=
  ⟨withAction digits (cmd .nop), by decide⟩

theorem witness_GetcrcResult :
    (∃ s : State, s.inbox = .wr32 0#22 0x00000001#32 :: [] ∧ s.err = true) ∧
    (∃ s : State, s.inbox = .wr32 0#22 0x00000001#32 :: [] ∧ s.err = false) :=
  ⟨⟨withAction { digits with status := 1 } (cmd .getcrc), by decide⟩, ⟨withAction digits (cmd .getcrc), by decide⟩⟩

theorem witness_CheckcrcResult :
    (∃ s : State, s.inbox = .wr32 0#22 (if true then 0x00000102#32 else 0x00000002#32) :: []) ∧
    (∃ s : State, s.inbox = .wr32 0#22 (if false then 0x00000102#32 else 0x00000002#32) :: []) :=
  ⟨⟨withAction digits (cmd (.checkcrc true)), by decide⟩, ⟨withAction digits (cmd (.checkcrc false)), by decide⟩⟩

theorem witness_EmptyRangeChecksumIsZero :
    (∃ s : State, s.crcLen.toNat ≤ s.crcOff.toNat ∧ s.crcLen = s.crcOff ∧ s.crcLen ≠ 0) ∧
    (∃ s : State, s.crcLen.toNat ≤ s.crcOff.toNat ∧ s.crcLen ≠ s.crcOff) :=
  ⟨⟨{ digits with crcOff := 4, crcLen := 4 }, by decide⟩, ⟨{ digits with crcOff := 5, crcLen := 4 }, by decide⟩⟩

theorem witness_ChecksumDependsOnItsRangeOnly :
    ∃ s t s' t' : State, s ≠ t ∧ s.crcOff = t.crcOff ∧ s.crcLen = t.crcLen ∧ s.crcLen.toNat ≤ s.bufLen ∧
      s.crcLen.toNat ≤ t.bufLen ∧ s.crcOff.toNat < s.crcLen.toNat ∧
      (∀ i, s.crcOff.toNat ≤ i → i < s.crcLen.toNat → s.bufByte i = t.bufByte i) ∧
      exec .getcrc s = .next s' ∧ exec .getcrc t = .next t' := by
  refine ⟨{ digits with crcLen := 3 }, { withBytes 3 [0x31, 0x32, 0x33] with crcLen := 3 }, _, _, by decide +kernel, rfl, rfl,
    by decide, by decide, by decide, ?_, rfl, rfl⟩
  have h : ∀ i, i < 3 → digits.bufByte i = (withBytes 3 [0x31, 0x32, 0x33]).bufByte i := by decide +kernel
  intro i _ hi
  exact h i (by simpa using hi)

theorem witness_RsaencResult : (keyK1 digits).n.toNat ≠ 0 ∧ digits.n.toNat = 0 ∧
    (withAction digits (cmd .rsaenc)).inbox = .wr32 0#22 0x00000010#32 :: [] := by decide +kernel

theorem witness_RsadecResult : ((keyK1 digits).p.toNat ≠ 0 ∧ (keyK1 digits).q.toNat ≠ 0) ∧
    (({ keyK1 digits with p := 0 } : State).p.toNat = 0 ∧ ({ keyK1 digits with q := 0 } : State).q.toNat = 0) ∧
    (withAction digits (cmd .rsadec)).inbox = .wr32 0#22 0x00000011#32 :: [] := by decide +kernel

theorem witness_ArithFaultExactlyOnZeroModulus :
    digits.n.toNat = 0 ∧ ({ keyK1 digits with p := 0 } : State).p.toNat = 0 ∧
    ({ keyK1 digits with q := 0 } : State).q.toNat = 0 ∧ (keyK1 digits).n.toNat ≠ 0 ∧ (keyK1 digits).p.toNat ≠ 0 ∧
    (keyK1 digits).q.toNat ≠ 0 := by decide +kernel

theorem witness_NatToBytesIsShortestBigEndian : (1 ≤ 256 ∧ 256 < 256 ^ 2) ∧ 1 < (natToBytes 256).length := by decide +kernel

theorem witness_ModExpIsPowerMod : 1 ≤ 3233 ∧ digits.n.toNat = 0 ∧ digits.p.toNat = 0 := by decide +kernel

theorem witness_CipherResultBounds :
    (∃ s t : State, s.n.toNat ≠ 0 ∧ exec .rsaenc s = .next t ∧ 0 < s.bufLen) ∧
    (∃ s t : State, s.p.toNat ≠ 0 ∧ s.q.toNat ≠ 0 ∧ exec .rsadec s = .next t) :=
  ⟨⟨keyK1 digits, _, by decide +kernel, next_nextOf (by decide +kernel), by decide⟩,
   ⟨keyK1 digits, _, by decide +kernel, by decide +kernel, next_nextOf (by decide +kernel)⟩⟩

theorem witness_RsadecCrtAlgebra :
    ∃ s t : State, s.p.toNat ≠ 0 ∧ s.q.toNat ≠ 0 ∧ exec .rsadec s = .next t ∧ t.rlen.toNat ≤ s.bufLen ∧
      s.qinv.toNat * s.q.toNat % s.p.toNat = 1 % s.p.toNat :=
  ⟨keyK1 (withBytes 8 [0x02, 0x0A, 0xE6]), _, by decide +kernel, by decide +kernel, next_nextOf (by decide +kernel),
    by decide +kernel, by decide +kernel⟩

/-- The boundary: the framed block of three bytes just fits. -/
theorem witness_RsaencOutputIsRsadecInput :
    ∃ s t : State, s.n.toNat ≠ 0 ∧ exec .rsaenc s = .next t ∧ 1 + t.rlen.toNat = s.bufLen :=
  ⟨{ keyK1 (withBytes 3 [0x41]) with bytePos := 1 }, _, by decide +kernel, next_nextOf (by decide +kernel), by decide +kernel⟩

/-- Key K1 with `d = 2753` and the plaintext of V-RSA-4. -/
theorem witness_EncryptThenDecryptRoundTrip :
    ∃ (s : State) (d : Nat),
      Nat.Prime s.p.toNat ∧ Nat.Prime s.q.toNat ∧ s.p.toNat ≠ s.q.toNat ∧ s.p.toNat ≠ 2 ∧ s.q.toNat ≠ 2 ∧
      s.n.toNat = s.p.toNat * s.q.toNat ∧
      s.e.toNat * d % Nat.lcm (s.p.toNat - 1) (s.q.toNat - 1) = 1 ∧
      s.dp.toNat = d % (s.p.toNat - 1) ∧ s.dq.toNat = d % (s.q.toNat - 1) ∧
      s.qinv.toNat * s.q.toNat % s.p.toNat = 1 ∧
      bytesToNat s.plaintext < s.n.toNat ∧
      s.bytePos.toNat ≤ s.bufLen ∧
      1 + (natToBytes (bytesToNat s.plaintext ^ s.e.toNat % s.n.toNat)).length ≤ s.bufLen ∧
      s.plaintext ≠ [] ∧ s.plaintext.head? ≠ some 0x00#8 := by
  have hp : (61#1024).toNat = 61 := by decide +kernel
  have hq : (53#1024).toNat = 53 := by decide +kernel
  refine ⟨{ keyK1 (withBytes 4 [0x0C, 0x8F]) with bytePos := 2 }, 2753, ?_, ?_, ?_⟩
  · show Nat.Prime (61#1024).toNat
    rw [hp]; norm_num
  · show Nat.Prime (53#1024).toNat
    rw [hq]; norm_num
  · decide +kernel

theorem witness_FaultsArePrecise : ∃ s t : State, exec .rsaenc s = .next t ∧ s.err = false ∧ t.err = true :=
  ⟨digits, _, next_nextOf (by decide +kernel), by decide, by decide +kernel⟩

theorem witness_FirstFaultRecordIsKept : ∃ s t : State, step s = .next t ∧ s.err = true ∧ t.err = true ∧ s.inbox ≠ [] :=
  ⟨withAction { digits with status := 1 } (cmd .rsaenc), _, next_nextOf (by decide +kernel), by decide, by decide +kernel, by decide⟩

theorem witness_ErrClearedOnlyByHostOrReset : ∃ s t : State, step s = .next t ∧ s.err = true ∧ t.err = false :=
  ⟨withAction { digits with status := 1 } clrerr, _, next_nextOf (by decide +kernel), by decide, by decide +kernel⟩

theorem witness_MatchWrittenOnlyByCheckcrc : ∃ s t : State, step s = .next t ∧ t.matched ≠ s.matched :=
  ⟨withAction digits (cmd (.checkcrc true)), _, next_nextOf (by decide +kernel), by decide +kernel⟩

theorem witness_FaultRecordWrittenOnlyByFaultEntry :
    ∃ s t : State, step s = .next t ∧ (t.cause ≠ s.cause ∨ t.einfo ≠ s.einfo) :=
  ⟨withAction digits (cmd .rsadec), _, next_nextOf (by decide +kernel), by decide +kernel⟩

theorem witness_CommandsWriteOnlyTheirRegisters :
    (∃ s t : State, exec .nop s = .next t) ∧ (∃ s t : State, exec .getcrc s = .next t) ∧
    (∃ s t : State, exec (.checkcrc true) s = .next t) ∧ (∃ s t : State, exec .rsaenc s = .next t) ∧
    (∃ s t : State, exec .rsadec s = .next t) :=
  ⟨⟨digits, _, rfl⟩, ⟨digits, _, rfl⟩, ⟨digits, _, rfl⟩, ⟨digits, _, next_nextOf (by decide +kernel)⟩,
   ⟨digits, _, next_nextOf (by decide +kernel)⟩⟩

/-- The last index of the buffer and the first beyond it. -/
theorem witness_MemWriteInsideOrDropped : 15 < digits.bufLen ∧ digits.bufLen ≤ 16 := by decide

theorem witness_ErrorClear : ∃ s : State, s.inbox = .wr32 4#22 0xFFFFFFFF#32 :: [] :=
  ⟨withAction digits (.wr32 4#22 0xFFFFFFFF#32), by decide⟩

/-- A scalar register at each end of the map and the last word of a key window. -/
theorem witness_RegisterReadValue :
    (∃ s : State, s.inbox = .rd32 0#22 :: [] ∧ wordTarget 0#22 = .ok (.scalar .cmd)) ∧
    (∃ s : State, s.inbox = .rd32 0x24#22 :: [] ∧ wordTarget 0x24#22 = .ok (.scalar .rlen)) ∧
    (∃ s : State, s.inbox = .rd32 0x1FC#22 :: [] ∧ wordTarget 0x1FC#22 = .ok (.keyWord .n 63)) :=
  ⟨⟨withAction digits (.rd32 0), by decide⟩, ⟨withAction digits (.rd32 0x24), by decide⟩,
   ⟨withAction digits (.rd32 0x1FC), by decide⟩⟩

theorem witness_RegisterWriteEffect :
    (∃ s : State, s.inbox = .wr32 0x10#22 7#32 :: [] ∧ wordTarget 0x10#22 = .ok (.scalar .bytePos)) ∧
    (∃ s : State, s.inbox = .wr32 0x2FC#22 7#32 :: [] ∧ wordTarget 0x2FC#22 = .ok (.keyWord .e 63)) ∧
    (∃ s : State, s.inbox = .wr32 0x57C#22 7#32 :: [] ∧ wordTarget 0x57C#22 = .ok (.keyWord .qinv 31)) :=
  ⟨⟨withAction digits (.wr32 0x10 7), by decide⟩, ⟨withAction digits (.wr32 0x2FC 7), by decide⟩,
   ⟨withAction digits (.wr32 0x57C 7), by decide⟩⟩

/-- The last byte of the buffer, the first beyond it, and the last of the window. -/
theorem witness_HostBufferAccess :
    (∃ s : State, s.inbox = .rd8 (BitVec.ofNat 22 (0x200000 + 15)) :: [] ∧ 15 < s.bufLen) ∧
    (∃ s : State, s.inbox = .rd8 (BitVec.ofNat 22 (0x200000 + 16)) :: [] ∧ ¬16 < s.bufLen) ∧
    (∃ s : State, s.inbox = .wr8 (BitVec.ofNat 22 (0x200000 + (2 ^ 21 - 1))) 1#8 :: []) :=
  ⟨⟨withAction digits (rdb 15), by decide⟩, ⟨withAction digits (rdb 16), by decide⟩,
   ⟨withAction digits (wrb (2 ^ 21 - 1) 1), by decide⟩⟩

theorem witness_KeyRegisterIsSumOfItsWords : 63 < keyWords .n ∧ 31 < keyWords .p ∧ ¬(KeyReg.p = .n ∧ 31 = 63) := by decide

theorem witness_AddressMapIsExact : 63 < keyWords .e ∧ wordTarget 0x2FC#22 = .ok (.keyWord .e 63) := by decide

/-- Offsets at both sides of each boundary of the map. -/
theorem witness_BusErrorAccessesStop :
    (∃ s : State, s.inbox = .rd32 0x28#22 :: []) ∧ (∃ s : State, s.inbox = .wr32 0x1FFFFF#22 0 :: []) ∧
    (∃ s : State, s.inbox = .rd32 0x200000#22 :: []) ∧ (∃ s : State, s.inbox = .rd32 0x27#22 :: []) ∧
    (∃ s : State, s.inbox = .wr32 0x57C#22 0 :: []) ∧ (∃ s : State, s.inbox = .rd8 0x580#22 :: []) ∧
    (∃ s : State, s.inbox = .rd8 0x57F#22 :: []) ∧ (∃ s : State, s.inbox = .wr8 0x200000#22 0 :: []) ∧
    (∃ s : State, s.inbox = .otherWidth 16 0xFF#22 :: []) ∧ (∃ s : State, s.inbox = .otherWidth 64 0x100#22 :: []) :=
  ⟨⟨withAction digits _, rfl⟩, ⟨withAction digits _, rfl⟩, ⟨withAction digits _, rfl⟩, ⟨withAction digits _, rfl⟩,
   ⟨withAction digits _, rfl⟩, ⟨withAction digits _, rfl⟩, ⟨withAction digits _, rfl⟩, ⟨withAction digits _, rfl⟩,
   ⟨withAction digits _, rfl⟩, ⟨withAction digits _, rfl⟩⟩

theorem witness_PlatformReset : ∃ s : State, s.inbox = .reset :: [] ∧ s.err = true :=
  ⟨withAction { digits with status := 1 } .reset, by decide⟩

theorem witness_StepKeepsInvariant : ∃ s t : State, s.Inv ∧ step s = .next t ∧ s.inbox ≠ [] := by
  refine ⟨withAction (keyK1 digits) (cmd .rsaenc), _, ⟨by decide, .inl ⟨by decide, by decide, by decide⟩, by decide, by decide,
    by decide, by decide⟩, next_nextOf (by decide +kernel), by decide⟩

end Sys2Proof.Tests
end

section
namespace Sys2Proof.Machine

/-! ### `MemWrite` on either side of `BUFLEN` (`20_memory.md` R45) -/

/-- A write at or beyond the length is dropped, the memory's cells included. -/
theorem Memory.writeIn_of_ge {len a : Nat} (m : Memory) (v : Byte) (h : len ≤ a) :
    Memory.writeIn len m a v = m :=
  if_neg (Nat.not_lt.2 h)

/-- `MemWrite`'s frame: the buffer is the only field it can change. -/
theorem State.memWrite_frame (s : State) (a : Nat) (v : Byte) :
    s.memWrite a v = { s with buf := (s.memWrite a v).buf } := rfl

theorem State.bufByte_memWrite_of_lt {s : State} {a : Nat} (v : Byte) (h : a < s.bufLen) (k : Nat) :
    (s.memWrite a v).bufByte k = if k = a then v else s.bufByte k := by
  simp only [State.bufByte_memWrite, h, and_true]

theorem State.memWrite_of_ge {s : State} {a : Nat} (v : Byte) (h : s.bufLen ≤ a) : s.memWrite a v = s := by
  rw [State.memWrite_frame, State.memWrite_buf, Memory.writeIn_of_ge s.buf v h]

/-- Settles O35: inside the buffer by the frame and the byte-wise rule, beyond it because the store is dropped. -/
theorem memWriteInsideOrDropped : Obligations.MemWriteInsideOrDropped := by
  intro s addr v
  constructor
  · intro hlt
    exact ⟨State.memWrite_frame s addr v, State.bufByte_memWrite_of_lt v hlt⟩
  · intro hge
    exact State.memWrite_of_ge v hge

end Sys2Proof.Machine
end

section
namespace Sys2Proof

/-! ### Legal words: the decoder accepts the encodings and nothing else (`30_encoding.md` R63, R69) -/

theorem decode_encode (i : Instr) : decode (encode i) = .ok i := by
  cases i with
  | checkcrc d => cases d <;> rfl
  | _ => rfl

theorem zeroField_formatC (d : Bool) (op : Byte) : zeroField (formatC d op) = 0 := by
  apply BitVec.eq_of_toNat_eq
  have hlt : (BitVec.ofBool d ++ op).toNat < 512 := (BitVec.ofBool d ++ op).isLt
  have htop : (formatC d op).toNat = (BitVec.ofBool d ++ op).toNat := by
    rw [formatC, BitVec.append_assoc, BitVec.toNat_cast, BitVec.toNat_append]
    simp
  rw [zeroField_toNat, htop, Nat.div_eq_of_lt hlt]
  rfl

theorem dField_formatC (d : Bool) (op : Byte) : dField (formatC d op) = d := by
  rw [dField, formatC, BitVec.getLsbD_append, BitVec.getLsbD_append]
  simp

theorem opField_formatC (d : Bool) (op : Byte) : opField (formatC d op) = op :=
  BitVec.extractLsb'_append_eq_right

/-- A word whose `ZERO` is 0 is format `C` of its `D` and its `OP` (R61). -/
theorem formatC_fields {w : Word} (hz : zeroField w = 0) : formatC (dField w) (opField w) = w :=
  word_ext ((zeroField_formatC _ _).trans hz.symm) (dField_formatC _ _) (opField_formatC _ _)

/-- Each branch of R69 that accepts a word fixes its fields, and the fields are the word. -/
theorem encode_eq_of_decode {w : Word} {i : Instr} (h : decode w = .ok i) : encode i = w := by
  unfold decode at h
  split_ifs at h with hz h02 hd h00 h01 h10 h11 <;> cases h <;>
    rw [← formatC_fields (not_not.1 hz)]
  · rw [dField_formatC, h02]; rfl
  all_goals rw [Bool.eq_false_of_not_eq_true hd]
  · rw [h00]; rfl
  · rw [h01]; rfl
  · rw [h10]; rfl
  · rw [h11]; rfl

theorem decode_eq_ok_iff {w : Word} {i : Instr} : decode w = .ok i ↔ w = encode i :=
  ⟨fun h => (encode_eq_of_decode h).symm, fun h => h ▸ decode_encode i⟩

/-- A row whose mask has every bit set is the one word of its match. -/
theorem decode_eq_ok_iff_and_allOnes {w : Word} {i : Instr} :
    decode w = .ok i ↔ w &&& 0xFFFFFFFF#32 = encode i := by
  rw [decode_eq_ok_iff, show (0xFFFFFFFF#32) = BitVec.allOnes 32 from rfl, BitVec.and_allOnes]

/-- CHECKCRC's row leaves out bit 8 alone, so its match and that bit are the whole word. -/
theorem eq_encode_checkcrc_of_and_mask {w : Word} (h : w &&& 0xFFFFFEFF#32 = 0x00000002#32) :
    w = encode (.checkcrc (w.getLsbD 8)) := by
  have hbit : w &&& 0x00000100#32 = if w.getLsbD 8 then 0x00000100#32 else 0 :=
    BitVec.and_twoPow w 8
  have hsplit : w = (w &&& 0xFFFFFEFF#32) ||| (w &&& 0x00000100#32) := by
    rw [← BitVec.and_or_distrib_left]
    exact (BitVec.and_allOnes).symm
  rw [h, hbit] at hsplit
  cases hd : w.getLsbD 8 <;> rw [hd] at hsplit <;> exact hsplit

theorem exists_decode_checkcrc_iff {w : Word} :
    (∃ d, decode w = .ok (.checkcrc d)) ↔ w &&& 0xFFFFFEFF#32 = 0x00000002#32 := by
  constructor
  · rintro ⟨d, hd⟩
    rw [decode_eq_ok_iff.1 hd]
    exact Laws.MatchMask.checkcrc d rfl
  · intro h
    exact ⟨_, decode_eq_ok_iff.2 (eq_encode_checkcrc_of_and_mask h)⟩

theorem eq_getLsbD_of_decode_checkcrc {w : Word} {d : Bool} (h : decode w = .ok (.checkcrc d)) :
    d = w.getLsbD 8 := by
  rw [decode_eq_ok_iff.1 h]
  cases d <;> rfl

theorem exists_decode_iff_mem_legalWords {w : Word} :
    (∃ i, decode w = .ok i) ↔
      w ∈ [0x00000000#32, 0x00000001#32, 0x00000002#32, 0x00000102#32, 0x00000010#32, 0x00000011#32] := by
  constructor
  · rintro ⟨i, hi⟩
    rw [decode_eq_ok_iff.1 hi]
    cases i with
    | checkcrc d => cases d <;> decide
    | _ => decide
  · simp only [List.mem_cons, List.not_mem_nil, or_false]
    rintro (rfl | rfl | rfl | rfl | rfl | rfl)
    · exact ⟨_, decode_encode .nop⟩
    · exact ⟨_, decode_encode .getcrc⟩
    · exact ⟨_, decode_encode (.checkcrc false)⟩
    · exact ⟨_, decode_encode (.checkcrc true)⟩
    · exact ⟨_, decode_encode .rsaenc⟩
    · exact ⟨_, decode_encode .rsadec⟩

/-- Settles O2: a word decodes to a command exactly when it is that command's encoding, so each row comes down to what its mask
leaves of the word. -/
theorem rowsByMatchAndMask : Obligations.RowsByMatchAndMask := by
  intro w
  exact ⟨decode_eq_ok_iff_and_allOnes, decode_eq_ok_iff_and_allOnes, exists_decode_checkcrc_iff,
    fun _ => eq_getLsbD_of_decode_checkcrc, decode_eq_ok_iff_and_allOnes, decode_eq_ok_iff_and_allOnes,
    exists_decode_iff_mem_legalWords⟩

/-! ### Illegal words (`30_encoding.md` R64) -/

/-- A word of one of R64's three kinds is no command's: each of the six encodings has `ZERO` 0, `D` set under CHECKCRC's `OP`
alone, and a listed `OP`. -/
theorem decode_ne_ok_of_illegal_fields {w : Word}
    (h : w >>> 9 ≠ 0 ∨ (w.getLsbD 8 = true ∧ w &&& 0xFF#32 ≠ 0x02#32) ∨
      w &&& 0xFF#32 ∉ [0x00#32, 0x01#32, 0x02#32, 0x10#32, 0x11#32]) (i : Instr) :
    decode w ≠ .ok i := by
  intro hi
  rw [decode_eq_ok_iff.1 hi] at h
  revert h
  cases i with
  | checkcrc d => cases d <;> decide
  | _ => decide

end Sys2Proof

namespace Sys2Proof.Machine

/-- Command issue of a word that is no command's, with the lock off (`60_exceptions.md` R141). -/
theorem State.issue_of_decode_ne_ok {s : State} {w : Word} (herr : s.err = false)
    (hw : ∀ i, decode w ≠ .ok i) : s.issue w = .next (s.raise .illegalCmd w) := by
  cases hd : decode w with
  | error e => simp only [State.issue, herr, hd, Bool.false_eq_true, if_false]
  | ok i => exact absurd hd (hw i)

/-- Settles O6: an illegal word is no command's, so its issue is fault entry and nothing else. -/
theorem illegalWordRaisesIllegalCmd : Obligations.IllegalWordRaisesIllegalCmd := by
  intro s w rest hinbox herr hillegal
  rw [step_cons hinbox, takeAction_cmd,
    State.issue_of_decode_ne_ok (s := { s with inbox := rest }) herr (decode_ne_ok_of_illegal_fields hillegal)]
  rfl

end Sys2Proof.Machine
end

section
namespace Sys2Proof.Machine

open Sys2Proof.Reference

/-! ### The printed table (`40_crc.md` R81) -/

/-- `n` consecutive entries of the computed table, from entry `start`. -/
def tableSlice (start n : Nat) : List Word := (List.range' start n).map fun k => tableEntry (BitVec.ofNat 8 k)

theorem tableSlice_append (start m n : Nat) :
    tableSlice start m ++ tableSlice (start + m) n = tableSlice start (m + n) := by
  rw [tableSlice, tableSlice, tableSlice, ← List.map_append, List.range'_append_1]

theorem tableSlice_length (start n : Nat) : (tableSlice start n).length = n := by
  simp [tableSlice]

theorem tableSlice_getElem? {start n k : Nat} (h : k < n) :
    (tableSlice start n)[k]? = some (tableEntry (BitVec.ofNat 8 (start + k))) := by
  simp [tableSlice, h]

theorem printedTable0_eq_tableSlice : printedTable0 = tableSlice 0 64 := by decide +kernel

theorem printedTable1_eq_tableSlice : printedTable1 = tableSlice 64 64 := by decide +kernel

theorem printedTable2_eq_tableSlice : printedTable2 = tableSlice 128 64 := by decide +kernel

theorem printedTable3_eq_tableSlice : printedTable3 = tableSlice 192 64 := by decide +kernel

/-- The four printed blocks are consecutive slices of the computed table. -/
theorem printedTable_eq_tableSlice : printedTable = tableSlice 0 256 := by
  rw [printedTable, printedTable0_eq_tableSlice, printedTable1_eq_tableSlice, printedTable2_eq_tableSlice,
    printedTable3_eq_tableSlice, tableSlice_append 0 64 64, tableSlice_append 0 128 64, tableSlice_append 0 192 64]

/-- Settles O11: the printed table is the computed one from entry 0 to entry 255. -/
theorem tableIsThePrintedTable : Obligations.TableIsThePrintedTable := by
  rw [Obligations.TableIsThePrintedTable, printedTable_eq_tableSlice]
  refine ⟨tableSlice_length 0 256, fun k hk => ?_⟩
  rw [tableSlice_getElem? hk, Nat.zero_add]

/-! ### The table-driven checksum is the bit-serial one (`40_crc.md` R80, R82, R85)

A bit pattern xored into the register before the table loop may instead be fed in serially, one bit an iteration: what is not
consumed yet stays xored above the register. -/

theorem serialBit_false (r : Word) : serialBit r false = tableShift r := by
  rw [serialBit, Bool.xor_false]
  rfl

/-- One iteration on `r ^^^ v` consumes bit 0 of `v` as the message bit and keeps the other bits for later. -/
theorem tableShift_xor (r v : Word) : tableShift (r ^^^ v) = serialBit r (v.getLsbD 0) ^^^ (v >>> 1) := by
  rw [tableShift, serialBit, BitVec.getLsbD_xor, BitVec.ushiftRight_xor_distrib]
  split
  · rw [crcPoly]
    ac_rfl
  · rfl

theorem tableLoop_xor (n : Nat) (r v : Word) :
    tableLoop n (r ^^^ v) =
      (List.range n).foldl (fun r k => serialBit r (v.getLsbD k)) r ^^^ (v >>> n) := by
  induction n generalizing r v with
  | zero => simp [tableLoop]
  | succ n ih =>
    rw [tableLoop, tableShift_xor, ih, List.range_succ_eq_map, List.foldl_cons, List.foldl_map,
      ← BitVec.shiftRight_add, Nat.add_comm 1 n]
    simp only [BitVec.getLsbD_ushiftRight, Nat.succ_eq_add_one, Nat.add_comm 1]

/-- Bits the loop does not reach are only shifted. -/
theorem tableLoop_xor_of_low_zero {n : Nat} {v : Word} (r : Word) (hv : ∀ k < n, v.getLsbD k = false) :
    tableLoop n (r ^^^ v) = tableLoop n r ^^^ (v >>> n) := by
  induction n generalizing r v with
  | zero => simp [tableLoop]
  | succ n ih =>
    have hrest : ∀ k < n, (v >>> 1).getLsbD k = false := by
      intro k hk
      rw [BitVec.getLsbD_ushiftRight]
      exact hv (1 + k) (by omega)
    rw [tableLoop, tableShift_xor, hv 0 (Nat.succ_pos n), serialBit_false, ih _ hrest,
      ← BitVec.shiftRight_add, Nat.add_comm 1 n, tableLoop]

theorem byte_setWidth_ushiftRight_eight (b : Byte) : b.setWidth 32 >>> 8 = 0#32 := by
  apply BitVec.eq_of_toNat_eq
  have hb := b.isLt
  simp [BitVec.toNat_ushiftRight, Nat.shiftRight_eq_div_pow]
  omega

/-- Eight iterations consume a byte xored into the register. -/
theorem tableLoop_xor_byte (crc : Word) (b : Byte) : tableLoop 8 (crc ^^^ b.setWidth 32) = serialByte crc b := by
  rw [tableLoop_xor, byte_setWidth_ushiftRight_eight, BitVec.xor_zero, serialByte]
  simp only [BitVec.getLsbD_setWidth]
  rfl

/-- Eight iterations on a word are the table's entry for its low byte, with the other three bytes shifted in below. -/
theorem tableLoop_eight (x : Word) : tableLoop 8 x = x >>> 8 ^^^ tableEntry (x.extractLsb' 0 8) := by
  set low : Word := (x.extractLsb' 0 8).setWidth 32 with hlow
  have hbits : ∀ k < 8, (low ^^^ x).getLsbD k = false := by
    intro k hk
    have hk32 : k < 32 := by omega
    simp [hlow, hk, hk32]
  calc tableLoop 8 x
      = tableLoop 8 (low ^^^ (low ^^^ x)) := by rw [← BitVec.xor_assoc, BitVec.xor_self, BitVec.zero_xor]
    _ = tableEntry (x.extractLsb' 0 8) ^^^ ((low ^^^ x) >>> 8) := tableLoop_xor_of_low_zero low hbits
    _ = x >>> 8 ^^^ tableEntry (x.extractLsb' 0 8) := by
        rw [BitVec.ushiftRight_xor_distrib, byte_setWidth_ushiftRight_eight, BitVec.zero_xor, BitVec.xor_comm]

theorem crcStep_eq_serialByte (crc : Word) (b : Byte) : crcStep crc b = serialByte crc b := by
  rw [← tableLoop_xor_byte, tableLoop_eight, BitVec.ushiftRight_xor_distrib, byte_setWidth_ushiftRight_eight,
    BitVec.xor_zero, crcStep]

theorem crcBytes_eq_serialCrc32 (bs : List Byte) : crcBytes bs = serialCrc32 bs := by
  have hstep : crcStep = serialByte := funext₂ crcStep_eq_serialByte
  rw [crcBytes, serialCrc32, hstep, ← BitVec.xor_allOnes]
  rfl

/-- `CrcRange` on the bytes `MemRead` gives at the indexes of its range (R82). -/
theorem State.crcRange_eq_serialCrc32 (s : State) (off fin : Word) :
    s.crcRange off fin =
      serialCrc32 ((List.range (fin.toNat - off.toNat)).map fun i => s.memRead (off.toNat + i)) := by
  rw [State.crcRange, crcBytes_eq_serialCrc32, State.rangeBytes, State.memReadSeq_eq_map]

/-! ### The checksum commands (`40_crc.md` R83, R84) -/

/-- A command's word written to `CMD` runs the command, or is dropped while `ERR` is set (`42_system.md` R135). -/
theorem step_encode {s : State} {rest : List HostAction} {i : Instr}
    (hinbox : s.inbox = .wr32 0#22 (encode i) :: rest) :
    step s = if s.err then .next { s with inbox := rest } else exec i { s with inbox := rest } := by
  rw [step_cons hinbox, takeAction_cmd]
  simp only [State.issue, decode_encode]
  rfl

/-- GETCRC completes from every state (R83). -/
theorem exec_getcrc (s : State) :
    exec .getcrc s = .next ({ s with crcRes := s.crcRange s.crcOff s.crcLen }).nextDraw := rfl

/-- CHECKCRC completes from every state, its expected value picked by `D` (R84). -/
theorem exec_checkcrc (d : Bool) (s : State) :
    exec (.checkcrc d) s = .next ({ s with crcRes := s.crcRange s.crcOff s.crcLen }.setMatch
      (decide (s.crcRange s.crcOff s.crcLen = if d then 0#32 else s.crcExp))).nextDraw := rfl

/-- Settles O14: dispatch of GETCRC's word, and the checksum of its range in the bit-serial form. -/
theorem getcrcResult : Obligations.GetcrcResult := by
  constructor
  · intro s rest hinbox
    exact step_encode (i := .getcrc) hinbox
  · intro s
    exact ⟨_, exec_getcrc s, s.crcRange_eq_serialCrc32 s.crcOff s.crcLen, rfl, fun _ => rfl⟩

/-- The two words of CHECKCRC's row (`30_encoding.md` R62). -/
theorem encode_checkcrc (d : Bool) :
    encode (.checkcrc d) = if d then 0x00000102#32 else 0x00000002#32 := by
  cases d <;> rfl

/-- Setting `MATCH` writes bit 1 of `STATUS` alone (`10_state.md` R14). -/
theorem State.getLsbD_setMatch_status_of_ne_one (b : Bool) (s : State) {k : Nat} (hk : k ≠ 1) :
    (s.setMatch b).status.getLsbD k = s.status.getLsbD k := by
  have hmask : matchMask.getLsbD k = false := by
    rw [show matchMask = BitVec.twoPow 32 1 from rfl, BitVec.getLsbD_twoPow]
    simp [hk.symm]
  have hbit : (if b then matchMask else 0).getLsbD k = false := by
    cases b
    · exact BitVec.getLsbD_zero
    · exact hmask
  rw [State.setMatch_status, BitVec.getLsbD_or, hbit, BitVec.getLsbD_and, BitVec.getLsbD_not, hmask, Bool.or_false]
  by_cases hlt : k < 32
  · simp [hlt]
  · simp [BitVec.getLsbD_of_ge s.status k (by omega)]

/-- Settles O15: dispatch of CHECKCRC's two words, the checksum of its range in the bit-serial form, and `STATUS` bit by bit. -/
theorem checkcrcResult : Obligations.CheckcrcResult := by
  constructor
  · intro d s rest hinbox
    rw [← encode_checkcrc] at hinbox
    exact step_encode hinbox
  · intro d s
    exact ⟨_, exec_checkcrc d s, s.crcRange_eq_serialCrc32 s.crcOff s.crcLen, State.setMatch_matched _ _,
      fun _ => State.getLsbD_setMatch_status_of_ne_one _ _, rfl, fun _ => rfl⟩

end Sys2Proof.Machine
end

section
namespace Sys2Proof.Machine

/-! ### `BytesToNat` (`41_rsa.md` R100) -/

theorem bytesToNat_eq_sum (bs : List Byte) :
    bytesToNat bs = ∑ i ∈ Finset.range bs.length, (bs.getD i 0).toNat * 256 ^ (bs.length - 1 - i) := by
  induction bs with
  | nil => rfl
  | cons b bs ih =>
    rw [bytesToNat_cons, ih, List.length_cons, Finset.sum_range_succ', Nat.add_comm]
    simp only [List.getD_cons_succ, List.getD_cons_zero, Nat.add_sub_cancel, Nat.sub_zero, Nat.sub_sub, Nat.add_comm 1]

@[simp] theorem bytesToNat_zero_cons (bs : List Byte) : bytesToNat (0 :: bs) = bytesToNat bs := by
  simp [bytesToNat_cons]

theorem bytesToNat_lt (bs : List Byte) : bytesToNat bs < 256 ^ bs.length := by
  induction bs with
  | nil => exact Nat.one_pos
  | cons b bs ih =>
    rw [bytesToNat_cons, List.length_cons]
    calc b.toNat * 256 ^ bs.length + bytesToNat bs
        < b.toNat * 256 ^ bs.length + 256 ^ bs.length := Nat.add_lt_add_left ih _
      _ = (b.toNat + 1) * 256 ^ bs.length := (Nat.succ_mul ..).symm
      _ ≤ 256 * 256 ^ bs.length := Nat.mul_le_mul_right _ b.isLt
      _ = 256 ^ (bs.length + 1) := (Nat.pow_succ').symm

/-- Settles O21: the sum by induction on the sequence, whose head is its most significant byte. -/
theorem bytesToNatIsBigEndianSum : Obligations.BytesToNatIsBigEndianSum :=
  ⟨bytesToNat_eq_sum, rfl, bytesToNat_zero_cons⟩

/-! ### `NatToBytes` (`41_rsa.md` R101) -/

theorem byteLength_pos (v : Nat) : 1 ≤ byteLength v := Nat.succ_pos _

/-- `byteLength` is the least number of bytes a value fits in. -/
theorem lt_pow_iff_byteLength_le {v : Nat} (hv : v ≠ 0) (k : Nat) : v < 256 ^ k ↔ byteLength v ≤ k := by
  rw [show 256 = 2 ^ 8 from rfl, ← Nat.pow_mul, ← Nat.log2_lt hv, byteLength]
  omega

theorem lt_pow_byteLength (v : Nat) : v < 256 ^ byteLength v := by
  rcases Nat.eq_zero_or_pos v with rfl | hv
  · exact Nat.pow_pos (by omega)
  · exact (lt_pow_iff_byteLength_le hv.ne' _).2 (Nat.le_refl _)

/-- A value of at most `8 * k` bits has at most `k` bytes, the one byte of 0 included. -/
theorem byteLength_le {v w k : Nat} (hk : 1 ≤ k) (hw : w ≤ 8 * k) (hv : v < 2 ^ w) : byteLength v ≤ k := by
  rcases Nat.eq_zero_or_pos v with rfl | hpos
  · exact hk
  · rw [← lt_pow_iff_byteLength_le hpos.ne', show 256 = 2 ^ 8 from rfl, ← Nat.pow_mul]
    exact hv.trans_le (Nat.pow_le_pow_right (by omega) hw)

/-- The `n` least significant bytes of `v`, big-endian: `natToBytes` with the number of bytes set free. -/
def bigEndianBytes (n v : Nat) : List Byte :=
  (List.range n).map fun i => BitVec.ofNat 8 (v / 256 ^ (n - 1 - i))

theorem natToBytes_eq_bigEndianBytes (v : Nat) : natToBytes v = bigEndianBytes (byteLength v) v := rfl

@[simp] theorem bigEndianBytes_length (n v : Nat) : (bigEndianBytes n v).length = n := by
  simp [bigEndianBytes]

theorem bigEndianBytes_succ (n v : Nat) :
    bigEndianBytes (n + 1) v = BitVec.ofNat 8 (v / 256 ^ n) :: bigEndianBytes n v := by
  simp only [bigEndianBytes, List.range_succ_eq_map, List.map_cons, List.map_map, Function.comp_def,
    Nat.add_sub_cancel, Nat.sub_zero, Nat.succ_eq_add_one, Nat.sub_sub, Nat.add_comm 1]

theorem bytesToNat_bigEndianBytes (n v : Nat) : bytesToNat (bigEndianBytes n v) = v % 256 ^ n := by
  induction n with
  | zero => exact (Nat.mod_one v).symm
  | succ n ih =>
    rw [bigEndianBytes_succ, bytesToNat_cons, ih, bigEndianBytes_length, BitVec.toNat_ofNat, show 2 ^ 8 = 256 from rfl,
      Nat.mod_pow_succ, Nat.add_comm, Nat.mul_comm]

theorem bytesToNat_natToBytes (v : Nat) : bytesToNat (natToBytes v) = v := by
  rw [natToBytes_eq_bigEndianBytes, bytesToNat_bigEndianBytes, Nat.mod_eq_of_lt (lt_pow_byteLength v)]

theorem toNat_getD_natToBytes {v i : Nat} (hi : i < (natToBytes v).length) :
    ((natToBytes v).getD i 0).toNat = v / 256 ^ ((natToBytes v).length - 1 - i) % 256 := by
  rw [List.getD_eq_getElem _ _ hi, natToBytes_length]
  simp [natToBytes]

/-- A leading zero byte could be left out, and the sequence would not be the shortest. -/
theorem head?_natToBytes_ne_zero {v : Nat} (hv : v ≠ 0) : (natToBytes v).head? ≠ some 0 := by
  intro hhead
  obtain ⟨bs, hbs⟩ := List.head?_eq_some_iff.1 hhead
  have hval : bytesToNat bs = v := by rw [← bytesToNat_zero_cons, ← hbs, bytesToNat_natToBytes]
  have hshort : byteLength v ≤ bs.length := (lt_pow_iff_byteLength_le hv _).1 (hval ▸ bytesToNat_lt bs)
  have hlen : byteLength v = bs.length + 1 := by rw [← natToBytes_length, hbs, List.length_cons]
  omega

/-- Settles O22: `byteLength` is the least length that holds the value, and the bytes are the value's digits in base 256. -/
theorem natToBytesIsShortestBigEndian : Obligations.NatToBytesIsShortestBigEndian := by
  refine ⟨rfl, rfl, fun v => ⟨?_, bytesToNat_natToBytes v⟩,
    fun v hv => ⟨?_, fun k hk => ?_, ?_, fun i => toNat_getD_natToBytes⟩⟩
  · rw [natToBytes_length]
    exact byteLength_pos v
  · rw [natToBytes_length]
    exact lt_pow_byteLength v
  · rw [natToBytes_length]
    exact (lt_pow_iff_byteLength_le (by omega) k).1 hk
  · exact head?_natToBytes_ne_zero (by omega)

/-! ### `ModExp` (`41_rsa.md` R102) -/

/-- One exponent bit of square and multiply. -/
theorem pow_eq_square_pow_mul (b e : Nat) : b ^ e = (b * b) ^ (e / 2) * b ^ (e % 2) := by
  rw [← Nat.pow_two, ← Nat.pow_mul, ← Nat.pow_add, Nat.div_add_mod]

/-- With fuel for every bit of the exponent, the loop multiplies the accumulator by the power. -/
theorem modExpLoop_eq {m fuel : Nat} (b e acc : Nat) (hfuel : e < 2 ^ fuel) (hacc : acc < m) :
    modExpLoop m fuel b e acc = acc * b ^ e % m := by
  induction fuel generalizing b e acc with
  | zero =>
    obtain rfl : e = 0 := by simpa using hfuel
    rw [Nat.pow_zero, Nat.mul_one, Nat.mod_eq_of_lt hacc, modExpLoop]
  | succ fuel ih =>
    have hhalf : e / 2 < 2 ^ fuel := by rw [Nat.pow_succ] at hfuel; omega
    have hmod : ∀ x, x * b % m < m := fun x => Nat.mod_lt _ (by omega)
    rw [modExpLoop_succ, pow_eq_square_pow_mul b e]
    split
    · rename_i hodd
      rw [ih _ _ _ hhalf (hmod acc), hodd, Nat.pow_one, Nat.mul_mod, Nat.mod_mod, ← Nat.pow_mod, ← Nat.mul_mod]
      ring_nf
    · rename_i heven
      rw [ih _ _ _ hhalf hacc, show e % 2 = 0 by omega, Nat.pow_zero, Nat.mul_one, Nat.mul_mod, ← Nat.pow_mod,
        ← Nat.mul_mod]

theorem modExp_eq (b e : Nat) {m : Nat} (hm : 1 ≤ m) : modExp b e m = b ^ e % m := by
  rw [modExp, modExpLoop_eq _ _ _ Nat.lt_log2_self (Nat.mod_lt 1 hm), ← Nat.mul_mod_mod, ← Nat.pow_mod,
    ← Nat.mul_mod, Nat.one_mul]

/-! ### The cipher commands' faults (`60_exceptions.md` R142) -/

theorem exec_rsaenc_of_zero {s : State} (hn : s.n.toNat = 0) :
    exec .rsaenc s = .next (s.raise .arithFault 0x00000010#32) := by
  rcases execRsaenc_cases s with ⟨_, hexec⟩ | ⟨hne, _⟩
  · exact hexec
  · exact absurd hn hne

theorem exec_rsadec_of_zero {s : State} (hpq : s.p.toNat = 0 ∨ s.q.toNat = 0) :
    exec .rsadec s = .next (s.raise .arithFault 0x00000011#32) := by
  rcases execRsadec_cases s with ⟨_, hexec⟩ | ⟨hne, _⟩
  · exact hexec
  · exact absurd hpq hne

/-- Settles O23: each corner case is the residue of a power, and a modulus of 0 is fault entry. -/
theorem modExpIsPowerMod : Obligations.ModExpIsPowerMod := by
  refine ⟨fun b e m hm => modExp_eq b e hm, fun b m hm => ?_, fun b e => ?_, fun e m he hm => ?_,
    fun b e m hm => ?_, fun s hn => ?_, fun s hpq => ?_⟩
  · rw [modExp_eq b 0 hm, Nat.pow_zero]
  · rw [modExp_eq b e (Nat.le_refl 1), Nat.mod_one]
  · rw [modExp_eq 0 e hm, Nat.zero_pow he, Nat.zero_mod]
  · rw [modExp_eq b e hm, modExp_eq _ e hm, ← Nat.pow_mod]
  · exact ⟨_, exec_rsaenc_of_zero hn, s.raise_err _ _, rfl⟩
  · exact ⟨_, exec_rsadec_of_zero hpq, s.raise_err _ _, rfl⟩

/-! ### The cipher commands' results (`41_rsa.md` R103, R110, R111) -/

theorem exec_rsaenc_of_ne_zero {s : State} (hn : s.n.toNat ≠ 0) :
    exec .rsaenc s = .next (s.putCiphertext (natToBytes s.encryptNat)).nextDraw := by
  rcases execRsaenc_cases s with ⟨hzero, _⟩ | ⟨_, hexec⟩
  · exact absurd hzero hn
  · exact hexec

theorem exec_rsadec_of_ne_zero {s : State} (hp : s.p.toNat ≠ 0) (hq : s.q.toNat ≠ 0) :
    exec .rsadec s = .next (s.putPlaintext (natToBytes s.decryptNat)).nextDraw := by
  rcases execRsadec_cases s with ⟨hzero, _⟩ | ⟨_, hexec⟩
  · exact absurd hzero (not_or.2 ⟨hp, hq⟩)
  · exact hexec

theorem State.encryptNat_eq {s : State} (hn : s.n.toNat ≠ 0) :
    s.encryptNat = bytesToNat (s.memReadSeq 0 s.bytePos.toNat) ^ s.e.toNat % s.n.toNat :=
  modExp_eq _ _ (Nat.pos_of_ne_zero hn)

/-- The CRT recombination with its two exponentiations as powers. -/
theorem crtDecrypt_eq (c dp dq qinv : Nat) {p q : Nat} (hp : p ≠ 0) (hq : q ≠ 0) :
    crtDecrypt c p q dp dq qinv = c ^ dq % q + crtH qinv (c ^ dp % p) (c ^ dq % q) p * q := by
  rw [crtDecrypt, modExp_eq c dp (Nat.pos_of_ne_zero hp), modExp_eq c dq (Nat.pos_of_ne_zero hq)]

theorem State.decryptNat_eq {s : State} (hp : s.p.toNat ≠ 0) (hq : s.q.toNat ≠ 0) :
    s.decryptNat =
      bytesToNat s.ciphertext ^ s.dq.toNat % s.q.toNat +
        crtH s.qinv.toNat (bytesToNat s.ciphertext ^ s.dp.toNat % s.p.toNat)
          (bytesToNat s.ciphertext ^ s.dq.toNat % s.q.toNat) s.p.toNat * s.q.toNat :=
  crtDecrypt_eq _ _ _ _ hp hq

theorem crtH_lt (qinv mP mQ : Nat) {p : Nat} (hp : p ≠ 0) : crtH qinv mP mQ p < p := by
  have hp' : (0 : Int) < p := by omega
  have hnonneg := Int.emod_nonneg (qinv * (mP - mQ)) hp'.ne'
  have hlt := Int.emod_lt_of_pos (qinv * (mP - mQ)) hp'
  rw [crtH]
  omega

theorem crtDecrypt_lt (c dp dq qinv : Nat) {p q : Nat} (hp : p ≠ 0) (hq : q ≠ 0) :
    crtDecrypt c p q dp dq qinv < p * q := by
  rw [crtDecrypt_eq c dp dq qinv hp hq]
  set h := crtH qinv (c ^ dp % p) (c ^ dq % q) p
  calc c ^ dq % q + h * q
      < q + h * q := Nat.add_lt_add_right (Nat.mod_lt _ (Nat.pos_of_ne_zero hq)) _
    _ = (h + 1) * q := by ring
    _ ≤ p * q := Nat.mul_le_mul_right _ (crtH_lt _ _ _ hp)

theorem mod_toNat_lt {w : Nat} (x : Nat) {n : BitVec w} (hn : n.toNat ≠ 0) : x % n.toNat < 2 ^ w :=
  (Nat.mod_lt x (Nat.pos_of_ne_zero hn)).trans n.isLt

/-- RSAENC's result has at most `KEYBITS / 8` bytes (R103). -/
theorem State.byteLength_encryptNat_le {s : State} (hn : s.n.toNat ≠ 0) : byteLength s.encryptNat ≤ 255 := by
  rw [State.encryptNat_eq hn]
  exact byteLength_le (by omega) (by omega) (mod_toNat_lt _ hn)

theorem toNat_mul_toNat_lt {w : Nat} (a b : BitVec w) : a.toNat * b.toNat < 2 ^ (w + w) := by
  rw [Nat.pow_add]
  exact Nat.mul_lt_mul'' a.isLt b.isLt

/-- RSADEC's result has at most `2 * HALFBITS / 8` bytes (R103). -/
theorem State.byteLength_decryptNat_le {s : State} (hp : s.p.toNat ≠ 0) (hq : s.q.toNat ≠ 0) :
    byteLength s.decryptNat ≤ 256 :=
  byteLength_le (by omega) (by omega) ((crtDecrypt_lt _ _ _ _ hp hq).trans (toNat_mul_toNat_lt s.p s.q))

theorem toNat_ofNat_word {k : Nat} (hk : k ≤ 257) : (BitVec.ofNat 32 k).toNat = k :=
  Nat.mod_eq_of_lt (by omega)

/-- Settles O18: dispatch of RSAENC's word, fault entry, and the rewriting with the ciphertext as a power's residue; its length is
small enough for the cursor and `RLEN` to hold it exactly. -/
theorem rsaencResult : Obligations.RsaencResult := by
  refine ⟨fun s rest hinbox => step_encode (i := .rsaenc) hinbox, fun s hn => exec_rsaenc_of_zero hn, fun s hn => ?_⟩
  rw [← State.encryptNat_eq hn]
  have hlen : (natToBytes s.encryptNat).length ≤ 255 := by
    rw [natToBytes_length]
    exact State.byteLength_encryptNat_le hn
  exact ⟨_, exec_rsaenc_of_ne_zero hn,
    ⟨toNat_ofNat_word (by omega), toNat_ofNat_word (by omega), s.bufByte_putCiphertext _⟩, rfl⟩

/-- Settles O19: dispatch of RSADEC's word, fault entry, and the rewriting with the plaintext by the four CRT formulae. -/
theorem rsadecResult : Obligations.RsadecResult := by
  refine ⟨fun s rest hinbox => step_encode (i := .rsadec) hinbox, fun s hpq => exec_rsadec_of_zero hpq,
    fun s hp hq => ⟨_, exec_rsadec_of_ne_zero hp hq, ?_, rfl⟩⟩
  intro len c mP mQ h out
  have hout : out = natToBytes s.decryptNat := congrArg natToBytes (State.decryptNat_eq hp hq).symm
  have hlen : (natToBytes s.decryptNat).length ≤ 256 := by
    rw [natToBytes_length]
    exact State.byteLength_decryptNat_le hp hq
  rw [hout]
  exact ⟨rfl, toNat_ofNat_word (by omega), s.bufByte_putPlaintext _⟩

end Sys2Proof.Machine
end

section
namespace Sys2Proof.Machine

/-! ### One host access, given the target the map names (`42_system.md` R131 to R133) -/

theorem step_rd32 {s : State} {off : Offset} {x : WordTarget} {rest : List HostAction}
    (hinbox : s.inbox = .rd32 off :: rest) (hx : wordTarget off = .ok x) :
    step s = .next (({ s with inbox := rest } : State).deliver (.word (s.readTarget x))) := by
  rw [step_cons hinbox]
  simp only [State.takeAction, hx]
  rfl

theorem step_wr32 {s : State} {off : Offset} {v : Word} {x : WordTarget} {rest : List HostAction}
    (hinbox : s.inbox = .wr32 off v :: rest) (hx : wordTarget off = .ok x) :
    step s = ({ s with inbox := rest } : State).writeTarget x v := by
  rw [step_cons hinbox]
  simp only [State.takeAction, hx]

theorem step_rd8 {s : State} {off : Offset} {k : Nat} {rest : List HostAction}
    (hinbox : s.inbox = .rd8 off :: rest) (hk : byteTarget off = .ok k) :
    step s = .next (({ s with inbox := rest } : State).deliver (.byte (s.memRead k))).nextDraw := by
  rw [step_cons hinbox]
  simp only [State.takeAction, hk]
  rfl

theorem step_wr8 {s : State} {off : Offset} {b : Byte} {k : Nat} {rest : List HostAction}
    (hinbox : s.inbox = .wr8 off b :: rest) (hk : byteTarget off = .ok k) :
    step s = .next (({ s with inbox := rest } : State).memWrite k b) := by
  rw [step_cons hinbox]
  simp only [State.takeAction, hk]

/-! ### NOP (`42_system.md` R130) -/

theorem exec_nop (s : State) : exec .nop s = .next s := rfl

/-- Settles O10: the word runs NOP or is dropped by the error lock, and either way only the list moves on. -/
theorem nopChangesNothing : Obligations.NopChangesNothing := by
  refine ⟨decode_encode .nop, exec_nop, fun s rest hinbox => ?_⟩
  rw [step_encode (i := .nop) hinbox, exec_nop, ite_self]

/-! ### Error clear (`42_system.md` R134) -/

/-- Error clear writes bit 0 of `STATUS` alone (`10_state.md` R14). -/
theorem State.getLsbD_writeStatus_status_of_ne_zero (s : State) (v : Word) {k : Nat} (hk : k ≠ 0) :
    (s.writeStatus v).status.getLsbD k = s.status.getLsbD k := by
  have hmask : errMask.getLsbD k = false := by
    rw [show errMask = BitVec.twoPow 32 0 from rfl, BitVec.getLsbD_twoPow]
    simp [hk.symm]
  unfold State.writeStatus
  split
  · rw [State.clearErr_status, BitVec.getLsbD_and, BitVec.getLsbD_not, hmask]
    by_cases hlt : k < 32
    · simp [hlt]
    · simp [BitVec.getLsbD_of_ge s.status k (by omega)]
  · rfl

/-- A write to `STATUS`, wherever the map puts it: `ERR` by bit 0 of the word, every other bit and register kept. -/
theorem exists_step_of_wr32_status {s : State} {off : Offset} {v : Word} {rest : List HostAction}
    (hinbox : s.inbox = .wr32 off v :: rest) (hx : wordTarget off = .ok (.scalar .status)) :
    ∃ t : State, step s = .next t ∧ t.err = (s.err && !v.getLsbD 0) ∧
      (∀ k, k ≠ 0 → t.status.getLsbD k = s.status.getLsbD k) ∧
      t = { s with inbox := rest, status := t.status } := by
  obtain ⟨herr, -, hframe⟩ := State.writeStatus_spec { s with inbox := rest } v
  exact ⟨_, step_wr32 hinbox hx, herr, fun _ => State.getLsbD_writeStatus_status_of_ne_zero _ v, hframe⟩

/-- Settles O36: offset 4 is `STATUS`. -/
theorem errorClear : Obligations.ErrorClear := by
  intro s v rest hinbox
  exact exists_step_of_wr32_status hinbox wordTarget_status

/-! ### Host accesses to buffer bytes (`42_system.md` R133, `20_memory.md` R43) -/

theorem bufferOffset_toNat {k : Nat} (hk : k < 2 ^ 21) : (bufferOffset k).toNat = bufferBase + k :=
  Nat.mod_eq_of_lt (by simp only [bufferBase]; omega)

/-- Every offset of the window is the byte index it was made from, whatever `BUFLEN` is. -/
theorem byteTarget_bufferOffset {k : Nat} (hk : k < 2 ^ 21) : byteTarget (bufferOffset k) = .ok k := by
  have hfree : isReserved (bufferOffset k) = false := by
    simp only [isReserved, bufferOffset_toNat hk, bufferBase, Bool.or_eq_false_iff, Bool.and_eq_false_iff,
      decide_eq_false_iff_not]
    omega
  simp [byteTarget, hfree, bufferOffset_toNat hk]

/-- Settles O39: the access reaches byte `k`, where `MemRead` and `MemWrite` say what happens on either side of `BUFLEN`. -/
theorem hostBufferAccess : Obligations.HostBufferAccess := by
  intro s k rest hk
  have htarget := byteTarget_bufferOffset hk
  constructor
  · intro hinbox
    exact ⟨s.memRead k, _, step_rd8 hinbox htarget, State.memRead_of_lt, rfl⟩
  · intro v hinbox
    exact ⟨_, step_wr8 hinbox htarget, rfl, fun a => State.bufByte_memWrite { s with inbox := rest } k a v⟩

/-! ### What a read of `STATUS` or `CAUSE` gives (`10_state.md` R14, R15) -/

theorem State.getLsbD_zero_statusRead (s : State) : s.statusRead.getLsbD 0 = s.err := by
  simp [State.statusRead, State.err, errMask, matchMask]

theorem State.getLsbD_one_statusRead (s : State) : s.statusRead.getLsbD 1 = s.matched := by
  simp [State.statusRead, State.matched, errMask, matchMask]

/-- A word masked to its low `k` bits has nothing above them. -/
theorem and_ushiftRight_eq_zero {mask : Word} {k : Nat} (hmask : mask >>> k = 0) (x : Word) :
    (x &&& mask) >>> k = 0 := by
  rw [BitVec.ushiftRight_and_distrib, hmask]
  exact BitVec.and_zero

theorem getLsbD_and_lowByte (x : Word) {k : Nat} (hk : k < 8) :
    (x &&& 0x000000FF#32).getLsbD k = x.getLsbD k := by
  have hmask : ∀ i < 8, (0x000000FF#32).getLsbD i = true := by decide
  rw [BitVec.getLsbD_and, hmask k hk, Bool.and_true]

/-! ### Key windows (`10_state.md` R22, R23) -/

theorem windowRead_toNat {w : Nat} (v : BitVec w) (j : Nat) :
    (windowRead v j).toNat = v.toNat / 2 ^ (32 * j) % 2 ^ 32 := by
  rw [windowRead, BitVec.extractLsb'_toNat, Nat.shiftRight_eq_div_pow]

/-- The bits a word of a window has beyond its register read as 0 (R23). -/
theorem windowRead_ushiftRight_eq_zero {w : Nat} (v : BitVec w) {j k : Nat} (hw : w ≤ 32 * j + k) :
    windowRead v j >>> k = 0 := by
  apply BitVec.eq_of_getLsbD_eq
  intro i _
  rw [BitVec.getLsbD_ushiftRight, getLsbD_windowRead, BitVec.getLsbD_of_ge v _ (by omega), Bool.and_false]
  exact BitVec.getLsbD_zero.symm

/-- Word `j` after a write of word `j`: the word written, in the bits the register has. -/
theorem getLsbD_windowRead_windowWrite_same {w : Nat} (v : BitVec w) (j : Nat) (x : Word) {i : Nat} (hi : i < 32) :
    (windowRead (windowWrite v j x) j).getLsbD i = (decide (32 * j + i < w) && x.getLsbD i) := by
  rw [getLsbD_windowRead, getLsbD_windowWrite, if_pos (by omega), Nat.add_sub_cancel_left]
  simp [hi]

theorem windowRead_windowWrite_whole {w : Nat} (v : BitVec w) {j : Nat} (x : Word) (hw : 32 * j + 32 ≤ w) :
    windowRead (windowWrite v j x) j = x := by
  apply BitVec.eq_of_getLsbD_eq
  intro i hi
  rw [getLsbD_windowRead_windowWrite_same v j x hi, decide_eq_true (by omega), Bool.true_and]

theorem windowRead_windowWrite_low24 {w : Nat} (v : BitVec w) {j : Nat} (x : Word) (hw : w = 32 * j + 24) :
    windowRead (windowWrite v j x) j = x &&& 0x00FFFFFF#32 := by
  have hmask : ∀ i < 32, (0x00FFFFFF#32).getLsbD i = decide (i < 24) := by decide
  apply BitVec.eq_of_getLsbD_eq
  intro i hi
  rw [getLsbD_windowRead_windowWrite_same v j x hi, BitVec.getLsbD_and, hmask i hi, Bool.and_comm]
  simp [hw]

theorem windowRead_windowWrite_of_ne {w : Nat} (v : BitVec w) {i j : Nat} (x : Word) (hij : i ≠ j) :
    windowRead (windowWrite v j x) i = windowRead v i := by
  apply BitVec.eq_of_getLsbD_eq
  intro b hb
  rw [getLsbD_windowRead, getLsbD_windowRead, getLsbD_windowWrite, if_neg (by omega)]
  by_cases hw : 32 * i + b < w
  · simp [hw]
  · simp [BitVec.getLsbD_of_ge v _ (Nat.le_of_not_lt hw)]

/-! ### The key registers as one family -/

/-- The number of bits of a key register, `KEYBITS` or `HALFBITS` (R22). -/
def KeyReg.width : KeyReg → Nat
  | .n => 2040 | .e => 2040 | .p => 1024 | .q => 1024 | .dp => 1024 | .dq => 1024 | .qinv => 1024

/-- A key register by its name, so that one argument serves all seven. -/
def State.keyReg (s : State) : (k : KeyReg) → BitVec k.width
  | .n => s.n | .e => s.e | .p => s.p | .q => s.q | .dp => s.dp | .dq => s.dq | .qinv => s.qinv

theorem State.keyValue_eq (s : State) (k : KeyReg) : s.keyValue k = (s.keyReg k).toNat := by
  cases k <;> rfl

theorem State.readKeyWord_eq (s : State) (k : KeyReg) (j : Nat) :
    s.readKeyWord k j = windowRead (s.keyReg k) j := by
  cases k <;> rfl

theorem State.keyReg_writeKeyWord_same (s : State) (k : KeyReg) (j : Nat) (x : Word) :
    (s.writeKeyWord k j x).keyReg k = windowWrite (s.keyReg k) j x := by
  cases k <;> rfl

theorem State.keyReg_writeKeyWord_of_ne (s : State) {k k' : KeyReg} (j : Nat) (x : Word) (hk : k' ≠ k) :
    (s.writeKeyWord k j x).keyReg k' = s.keyReg k' := by
  cases k <;> cases k' <;> first | rfl | exact absurd rfl hk

/-- A write of a key word changes key registers only. -/
theorem State.writeKeyWord_frame (s : State) (k : KeyReg) (j : Nat) (x : Word) :
    s.writeKeyWord k j x =
      { s with
        n := (s.writeKeyWord k j x).n, e := (s.writeKeyWord k j x).e, p := (s.writeKeyWord k j x).p,
        q := (s.writeKeyWord k j x).q, dp := (s.writeKeyWord k j x).dp, dq := (s.writeKeyWord k j x).dq,
        qinv := (s.writeKeyWord k j x).qinv } := by
  cases k <;> rfl

/-- A word of a window lies inside its register, but for the 24-bit top word of `N` and `E` (R23). -/
theorem KeyReg.width_cases {k : KeyReg} {j : Nat} (hj : j < keyWords k) :
    (((k = .n ∨ k = .e) ∧ j = 63) ∧ k.width = 32 * j + 24) ∨
    (¬((k = .n ∨ k = .e) ∧ j = 63) ∧ 32 * j + 32 ≤ k.width) := by
  cases k <;> simp [keyWords, KeyReg.width] at hj ⊢ <;> omega

theorem State.readKeyWord_toNat (s : State) (k : KeyReg) (j : Nat) :
    (s.readKeyWord k j).toNat = s.keyValue k / 2 ^ (32 * j) % 2 ^ 32 := by
  rw [State.readKeyWord_eq, State.keyValue_eq, windowRead_toNat]

theorem State.readKeyWord_top_ushiftRight (s : State) {k : KeyReg} (hk : k = .n ∨ k = .e) :
    s.readKeyWord k 63 >>> 24 = 0 := by
  rw [State.readKeyWord_eq]
  apply windowRead_ushiftRight_eq_zero
  rcases hk with rfl | rfl <;> exact Nat.le_refl 2040

theorem State.readKeyWord_writeKeyWord_same (s : State) {k : KeyReg} {j : Nat} (x : Word) (hj : j < keyWords k) :
    (s.writeKeyWord k j x).readKeyWord k j =
      if (k = .n ∨ k = .e) ∧ j = 63 then x &&& 0x00FFFFFF#32 else x := by
  rw [State.readKeyWord_eq, State.keyReg_writeKeyWord_same]
  rcases KeyReg.width_cases hj with ⟨htop, hw⟩ | ⟨htop, hw⟩
  · rw [if_pos htop, windowRead_windowWrite_low24 _ x hw]
  · rw [if_neg htop, windowRead_windowWrite_whole _ x hw]

theorem State.readKeyWord_writeKeyWord_of_ne (s : State) {k k' : KeyReg} {i j : Nat} (x : Word)
    (hne : ¬(k' = k ∧ i = j)) : (s.writeKeyWord k j x).readKeyWord k' i = s.readKeyWord k' i := by
  rw [State.readKeyWord_eq, State.readKeyWord_eq]
  by_cases hk : k' = k
  · subst hk
    rw [State.keyReg_writeKeyWord_same, windowRead_windowWrite_of_ne _ x fun hi => hne ⟨rfl, hi⟩]
  · rw [State.keyReg_writeKeyWord_of_ne s j x hk]

/-! ### Register reads (`42_system.md` R131) -/

/-- Settles O37: the step delivers the target's value, which is then read off register by register. -/
theorem registerReadValue : Obligations.RegisterReadValue := by
  intro s off x rest hinbox hx
  refine ⟨s.readTarget x, step_rd32 hinbox hx, ?_⟩
  cases x with
  | scalar r =>
    cases r with
    | status => exact ⟨s.getLsbD_zero_statusRead, s.getLsbD_one_statusRead, and_ushiftRight_eq_zero rfl s.status⟩
    | cause => exact ⟨and_ushiftRight_eq_zero rfl s.cause, fun _ => getLsbD_and_lowByte s.cause⟩
    | _ => rfl
  | keyWord k j =>
    refine ⟨s.readKeyWord_toNat k j, fun hk hj => ?_⟩
    subst hj
    exact s.readKeyWord_top_ushiftRight hk

/-! ### Register writes (`42_system.md` R132) -/

/-- The map's ten scalar offsets hold no key word (`20_memory.md` R41). -/
theorem scalarAt_ne_keyWord (i : Nat) (k : KeyReg) (j : Nat) : scalarAt i ≠ .ok (.keyWord k j) := by
  unfold scalarAt
  split <;> simp

/-- A key window ends where its register's words end (R41). -/
theorem lt_keyWords_of_keyWordAt {o : Nat} {k : KeyReg} {j : Nat} (ho : 0x100 ≤ o)
    (h : keyWordAt o = .ok (.keyWord k j)) : j < keyWords k := by
  unfold keyWordAt at h
  split_ifs at h <;> cases h <;> simp only [keyWords] <;> omega

theorem lt_keyWords_of_wordTarget {off : Offset} {k : KeyReg} {j : Nat}
    (h : wordTarget off = .ok (.keyWord k j)) : j < keyWords k := by
  unfold wordTarget at h
  split_ifs at h
  unfold wordAt at h
  split_ifs at h with ho
  · exact absurd h (scalarAt_ne_keyWord _ k j)
  · exact lt_keyWords_of_keyWordAt (Nat.le_of_not_lt ho) h

/-- Settles O38: the step is the target's write; `STATUS` is error clear, a key word is the rule for its window, and every
other scalar register stores the word, ignores it or issues it. -/
theorem registerWriteEffect : Obligations.RegisterWriteEffect := by
  intro s off v x rest hinbox hx
  have hstep := step_wr32 hinbox hx
  cases x with
  | scalar r =>
    cases r with
    | status => exact exists_step_of_wr32_status hinbox hx
    | _ => exact hstep
  | keyWord k j =>
    have hj := lt_keyWords_of_wordTarget hx
    exact ⟨_, hstep, State.readKeyWord_writeKeyWord_same _ v hj,
      fun _ _ _ => State.readKeyWord_writeKeyWord_of_ne { s with inbox := rest } v,
      State.writeKeyWord_frame { s with inbox := rest } k j v⟩

end Sys2Proof.Machine
end

section
namespace Sys2Proof.Machine

/-! ### Priority at command issue (`60_exceptions.md` R145) -/

theorem step_cmd {s : State} {w : Word} {rest : List HostAction} (hinbox : s.inbox = .wr32 0#22 w :: rest) :
    step s = ({ s with inbox := rest } : State).issue w :=
  (step_cons hinbox).trans (takeAction_cmd _ w)

/-- The error lock (R146): the word is not even decoded. -/
theorem State.issue_of_err {s : State} (w : Word) (herr : s.err = true) : s.issue w = .next s :=
  if_pos herr

theorem State.issue_of_decode {s : State} {w : Word} {i : Instr} (herr : s.err = false) (hw : decode w = .ok i) :
    s.issue w = exec i s := by
  simp only [State.issue, herr, hw, Bool.false_eq_true, if_false]

/-- A modulus the command uses is zero (R142); only the cipher commands use one. -/
def State.usesZeroModulus (s : State) : Instr → Prop
  | .nop | .getcrc | .checkcrc _ => False
  | .rsaenc => s.n.toNat = 0
  | .rsadec => s.p.toNat = 0 ∨ s.q.toNat = 0

/-- Which word and which key registers make a modulus zero, written out (R140's row of ARITH_FAULT). -/
theorem State.usesZeroModulus_iff {s : State} {w : Word} {i : Instr} (hw : decode w = .ok i) :
    s.usesZeroModulus i ↔
      decode w = .ok .rsaenc ∧ s.n.toNat = 0 ∨ decode w = .ok .rsadec ∧ (s.p.toNat = 0 ∨ s.q.toNat = 0) := by
  rw [hw]
  cases i <;> simp [State.usesZeroModulus]

/-- A zero modulus is fault entry once, with the command's own word (R142, R144). -/
theorem exec_of_usesZeroModulus {s : State} {i : Instr} (hzero : s.usesZeroModulus i) :
    exec i s = .next (s.raise .arithFault (encode i)) := by
  cases i with
  | nop | getcrc | checkcrc d => exact hzero.elim
  | rsaenc => exact exec_rsaenc_of_zero hzero
  | rsadec => exact exec_rsadec_of_zero hzero

/-- With no zero modulus every command completes and leaves `ERR`, `CAUSE` and `EINFO` alone; CHECKCRC's write of `STATUS` is to
`MATCH`. -/
theorem exec_of_not_usesZeroModulus {s : State} {i : Instr} (hmod : ¬s.usesZeroModulus i) :
    ∃ t, exec i s = .next t ∧ t.err = s.err ∧ t.cause = s.cause ∧ t.einfo = s.einfo := by
  cases i with
  | nop => exact ⟨_, exec_nop s, rfl, rfl, rfl⟩
  | getcrc => exact ⟨_, exec_getcrc s, rfl, rfl, rfl⟩
  | checkcrc d => exact ⟨_, exec_checkcrc d s, State.setMatch_err _ _, rfl, rfl⟩
  | rsaenc => exact ⟨_, exec_rsaenc_of_ne_zero hmod, rfl, rfl, rfl⟩
  | rsadec =>
    obtain ⟨hp, hq⟩ := not_or.1 hmod
    exact ⟨_, exec_rsadec_of_ne_zero hp hq, rfl, rfl, rfl⟩

theorem State.issue_of_usesZeroModulus {s : State} {w : Word} {i : Instr} (herr : s.err = false) (hw : decode w = .ok i)
    (hzero : s.usesZeroModulus i) : s.issue w = .next (s.raise .arithFault w) := by
  rw [State.issue_of_decode herr hw, exec_of_usesZeroModulus hzero, encode_eq_of_decode hw]

theorem State.issue_of_not_usesZeroModulus {s : State} {w : Word} {i : Instr} (herr : s.err = false) (hw : decode w = .ok i)
    (hmod : ¬s.usesZeroModulus i) :
    ∃ t, s.issue w = .next t ∧ t.err = false ∧ t.cause = s.cause ∧ t.einfo = s.einfo := by
  rw [State.issue_of_decode herr hw, ← herr]
  exact exec_of_not_usesZeroModulus hmod

/-- Settles O5: the step is the issue of the word; the lock comes before decoding, decoding before the command, and a decoded
command either uses a zero modulus or completes. -/
theorem commandIssuePriority : Obligations.CommandIssuePriority := by
  intro s w rest hinbox
  rw [step_cmd hinbox]
  refine ⟨fun herr => ?locked, fun herr hillegal => ?illegal, fun herr hzero => ?zeroModulus,
    fun herr ⟨i, hw⟩ hmod => ?completes⟩
  case locked => exact State.issue_of_err w herr
  case illegal => exact State.issue_of_decode_ne_ok herr hillegal
  case zeroModulus =>
    obtain ⟨i, hw⟩ : ∃ i, decode w = .ok i := by
      rcases hzero with ⟨hw, -⟩ | ⟨hw, -⟩ <;> exact ⟨_, hw⟩
    exact State.issue_of_usesZeroModulus herr hw ((State.usesZeroModulus_iff hw).2 hzero)
  case completes =>
    exact State.issue_of_not_usesZeroModulus herr hw (mt (State.usesZeroModulus_iff hw).1 hmod)

end Sys2Proof.Machine
end

section
namespace Sys2Proof

/-! ### Decoding and encoding agree (`30_encoding.md` R63, R69) -/

theorem Instr.wellFormed_eq_true (i : Instr) : i.wellFormed = true := by
  cases i <;> rfl

/-- Settles O1: the encoder's words are decoded back, and each accepting branch of the decoder fixes the word's fields. -/
theorem decodeEncodeExact : Obligations.DecodeEncodeExact :=
  ⟨fun i _ => decode_encode i, fun _ i h => ⟨i.wellFormed_eq_true, encode_eq_of_decode h⟩⟩

/-- Settles O3: the legal words are the encodings, and each of the others is of one of R64's three kinds by its fields. -/
theorem specWordsDecode : Obligations.SpecWordsDecode := by
  refine ⟨decode_encode .nop, decode_encode .getcrc, decode_encode (.checkcrc false), decode_encode (.checkcrc true),
    decode_encode .rsaenc, decode_encode .rsadec, fun w hw => decode_ne_ok_of_illegal_fields ?_⟩
  simp only [List.mem_cons, List.not_mem_nil, or_false] at hw
  rcases hw with rfl | rfl | rfl | rfl | rfl | rfl | rfl | rfl | rfl <;> decide

end Sys2Proof
end

section
namespace Sys2Proof.Machine

/-! ### The address map (`20_memory.md` R41) -/

theorem isReserved_iff (off : Offset) :
    isReserved off = true ↔
      (0x28 ≤ off.toNat ∧ off.toNat < 0x100) ∨ (0x580 ≤ off.toNat ∧ off.toNat < 0x200000) := by
  simp [isReserved]

theorem isReserved_eq_false_iff (off : Offset) :
    isReserved off = false ↔
      ¬((0x28 ≤ off.toNat ∧ off.toNat < 0x100) ∨ (0x580 ≤ off.toNat ∧ off.toNat < 0x200000)) := by
  rw [← isReserved_iff, Bool.not_eq_true]

/-- A 32-bit access reaches a word exactly at an aligned offset of the register space that the map does not reserve. -/
theorem wordTarget_eq_ok_iff {off : Offset} {x : WordTarget} :
    wordTarget off = .ok x ↔
      isReserved off = false ∧ off.toNat < bufferBase ∧ off.toNat % 4 = 0 ∧ wordAt off.toNat = .ok x := by
  unfold wordTarget
  split_ifs with hres hbuf halign
  · simp [hres]
  · simp [Nat.not_lt.2 hbuf]
  · simp [halign]
  · simp only [Bool.eq_false_of_not_eq_true hres, Nat.lt_of_not_le hbuf, not_not.1 halign, true_and]

/-- The scalar registers stand at consecutive words from offset 0. -/
theorem scalarAt_eq_ok {i : Nat} {x : WordTarget} (h : scalarAt i = .ok x) :
    ∃ r, x = .scalar r ∧ scalarOffset r = 4 * i := by
  unfold scalarAt at h
  split at h <;> cases h <;> exact ⟨_, rfl, rfl⟩

theorem exists_scalarAt {i : Nat} (hi : i < 10) : ∃ x, scalarAt i = .ok x := by
  interval_cases i <;> exact ⟨_, rfl⟩

/-- A key word stands in its register's window, at the word its index names. -/
theorem keyWordAt_eq_ok {o : Nat} {x : WordTarget} (ho : 0x100 ≤ o) (halign : o % 4 = 0)
    (h : keyWordAt o = .ok x) : ∃ k j, x = .keyWord k j ∧ keyBase k + 4 * j = o := by
  unfold keyWordAt at h
  split_ifs at h <;> cases h <;> refine ⟨_, _, rfl, ?_⟩ <;> simp only [keyBase] <;> omega

theorem exists_keyWordAt {o : Nat} (ho : o < 0x580) : ∃ x, keyWordAt o = .ok x := by
  unfold keyWordAt
  split_ifs <;> exact ⟨_, rfl⟩

/-- The windows lie one after the other between the scalar registers and the reserved range. -/
theorem keyBase_bounds {k : KeyReg} {j : Nat} (hj : j < keyWords k) :
    0x100 ≤ keyBase k + 4 * j ∧ keyBase k + 4 * j < 0x580 := by
  cases k <;> simp only [keyWords, keyBase] at hj ⊢ <;> omega

/-- Each window's words decode to it: the windows before it end too low, those after it are not reached. -/
theorem keyWordAt_keyBase {k : KeyReg} {j : Nat} (hj : j < keyWords k) :
    keyWordAt (keyBase k + 4 * j) = .ok (.keyWord k j) := by
  have hindex : ∀ b : Nat, (b + 4 * j - b) / 4 = j := by omega
  cases k <;> simp only [keyWords] at hj <;> simp only [keyWordAt, keyBase, hindex] <;> split_ifs <;>
    first | rfl | omega

/-- Below the buffer window, every aligned offset that is not reserved is a word's. -/
theorem exists_wordTarget {off : Offset} (hres : isReserved off = false) (hlt : off.toNat < bufferBase)
    (halign : off.toNat % 4 = 0) : ∃ x, wordTarget off = .ok x := by
  have hword : ∃ x, wordAt off.toNat = .ok x := by
    rw [isReserved_eq_false_iff] at hres
    simp only [bufferBase] at hlt
    unfold wordAt
    split
    · exact exists_scalarAt (by omega)
    · exact exists_keyWordAt (by omega)
  obtain ⟨x, hx⟩ := hword
  exact ⟨x, wordTarget_eq_ok_iff.2 ⟨hres, hlt, halign, hx⟩⟩

theorem offsetOf_of_wordTarget {off : Offset} {x : WordTarget} (h : wordTarget off = .ok x) : offsetOf x = off := by
  obtain ⟨-, -, halign, hword⟩ := wordTarget_eq_ok_iff.1 h
  apply BitVec.eq_of_toNat_eq
  unfold wordAt at hword
  split at hword
  · obtain ⟨r, rfl, hr⟩ := scalarAt_eq_ok hword
    rw [offsetOf, hr, BitVec.toNat_ofNat, Nat.mul_div_cancel' (Nat.dvd_of_mod_eq_zero halign), Nat.mod_eq_of_lt off.isLt]
  · obtain ⟨k, j, rfl, hkj⟩ := keyWordAt_eq_ok (by omega) halign hword
    rw [offsetOf, hkj, BitVec.toNat_ofNat, Nat.mod_eq_of_lt off.isLt]

theorem wordTarget_offsetOf_scalar (r : ScalarReg) : wordTarget (offsetOf (.scalar r)) = .ok (.scalar r) := by
  cases r <;> rfl

theorem wordTarget_offsetOf_keyWord {k : KeyReg} {j : Nat} (hj : j < keyWords k) :
    wordTarget (offsetOf (.keyWord k j)) = .ok (.keyWord k j) := by
  obtain ⟨hlow, hhigh⟩ := keyBase_bounds hj
  have hoff : (offsetOf (.keyWord k j)).toNat = keyBase k + 4 * j := Nat.mod_eq_of_lt (by omega)
  have halign : keyBase k % 4 = 0 := by cases k <;> rfl
  rw [wordTarget_eq_ok_iff, isReserved_eq_false_iff, hoff]
  refine ⟨by omega, by rw [bufferBase]; omega, by omega, ?_⟩
  rw [wordAt, if_neg (by omega), keyWordAt_keyBase hj]

/-- Settles O41: names go to offsets and back, scalar register by scalar register and window by window. -/
theorem addressMapIsExact : Obligations.AddressMapIsExact :=
  ⟨wordTarget_offsetOf_scalar, fun _ _ => wordTarget_offsetOf_keyWord,
    fun _ _ h => ⟨offsetOf_of_wordTarget h, fun _ _ hx => lt_keyWords_of_wordTarget (hx ▸ h)⟩⟩

end Sys2Proof.Machine
end

section
namespace Sys2Proof.Machine

/-! ### What goes on and what stops (`20_memory.md` R56, `70_reset_and_hazards.md` R170) -/

/-- Every command answers a next state from every state. -/
theorem exists_exec (i : Instr) (s : State) : ∃ t, exec i s = .next t := by
  by_cases hzero : s.usesZeroModulus i
  · exact ⟨_, exec_of_usesZeroModulus hzero⟩
  · obtain ⟨t, ht, -⟩ := exec_of_not_usesZeroModulus hzero
    exact ⟨t, ht⟩

theorem State.exists_issue (s : State) (w : Word) : ∃ t, s.issue w = .next t := by
  unfold State.issue
  split
  · exact ⟨_, rfl⟩
  · split
    · exact ⟨_, rfl⟩
    · exact exists_exec _ s

theorem State.exists_writeTarget (s : State) (x : WordTarget) (v : Word) : ∃ t, s.writeTarget x v = .next t := by
  unfold State.writeTarget
  split
  · exact s.exists_issue v
  · exact ⟨_, rfl⟩
  · exact ⟨_, rfl⟩

theorem isOk_iff_exists {ε α : Type} {x : Except ε α} : x.isOk = true ↔ ∃ a, x = .ok a := by
  cases x <;> simp [Except.isOk, Except.toBool]

/-- One host action goes on exactly when the bus gives it a target. -/
theorem State.exists_takeAction_iff (s : State) (a : HostAction) :
    (∃ t, s.takeAction a = .next t) ↔ a.wellFormed = true := by
  constructor
  · rintro ⟨t, h⟩
    rcases takeAction_cases h with
      ⟨off, x, rfl, hx, -⟩ | ⟨off, w, rfl, hx, -⟩ | ⟨off, v, r, rfl, hx, -⟩ | ⟨off, v, k, j, rfl, hx, -⟩ |
      ⟨off, k, rfl, hk, -⟩ | ⟨off, b, k, rfl, hk, -⟩ | ⟨rfl, -⟩
    · exact isOk_iff_exists.2 ⟨x, hx⟩
    · exact isOk_iff_exists.2 ⟨_, hx⟩
    · exact isOk_iff_exists.2 ⟨_, hx⟩
    · exact isOk_iff_exists.2 ⟨_, hx⟩
    · exact isOk_iff_exists.2 ⟨k, hk⟩
    · exact isOk_iff_exists.2 ⟨k, hk⟩
    · rfl
  · intro hwf
    cases a with
    | rd32 off =>
      obtain ⟨x, hx⟩ := isOk_iff_exists.1 hwf
      exact ⟨s.deliver (.word (s.readTarget x)), by simp only [State.takeAction, hx]⟩
    | wr32 off v =>
      obtain ⟨x, hx⟩ := isOk_iff_exists.1 hwf
      obtain ⟨t, ht⟩ := s.exists_writeTarget x v
      exact ⟨t, by simp only [State.takeAction, hx, ht]⟩
    | rd8 off =>
      obtain ⟨k, hk⟩ := isOk_iff_exists.1 hwf
      exact ⟨(s.deliver (.byte (s.memRead k))).nextDraw, by simp only [State.takeAction, hk]⟩
    | wr8 off b =>
      obtain ⟨k, hk⟩ := isOk_iff_exists.1 hwf
      exact ⟨s.memWrite k b, by simp only [State.takeAction, hk]⟩
    | otherWidth bits off => exact absurd hwf Bool.false_ne_true
    | reset => exact ⟨_, rfl⟩

/-- Settles O43: on an empty list the engine is idle, and otherwise the first action decides. -/
theorem onlyMalformedAccessesStop : Obligations.OnlyMalformedAccessesStop := by
  intro s
  unfold State.proceeds State.nextWellFormed
  cases hinbox : s.inbox with
  | nil => exact ⟨fun _ => rfl, fun _ => ⟨s, step_nil hinbox⟩⟩
  | cons a rest =>
    rw [step_cons hinbox]
    exact State.exists_takeAction_iff _ a

/-! ### Which stop a malformed access is (entry 6) -/

theorem wordTarget_of_reserved {off : Offset} (hres : isReserved off = true) : wordTarget off = .error .reserved :=
  if_pos hres

theorem wordTarget_of_bufferBase_le {off : Offset} (hbuf : bufferBase ≤ off.toNat) :
    wordTarget off = .error .wrongWidth := by
  have hfree : isReserved off = false := by
    rw [isReserved_eq_false_iff]
    simp only [bufferBase] at hbuf
    omega
  simp [wordTarget, hfree, hbuf]

theorem wordTarget_of_misaligned {off : Offset} (hres : isReserved off = false) (hlt : off.toNat < bufferBase)
    (halign : off.toNat % 4 ≠ 0) : wordTarget off = .error .misaligned := by
  simp [wordTarget, hres, Nat.not_le.2 hlt, halign]

theorem byteTarget_of_reserved {off : Offset} (hres : isReserved off = true) : byteTarget off = .error .reserved :=
  if_pos hres

theorem byteTarget_of_lt_bufferBase {off : Offset} (hres : isReserved off = false) (hlt : off.toNat < bufferBase) :
    byteTarget off = .error .wrongWidth := by
  simp [byteTarget, hres, hlt]

theorem exists_byteTarget {off : Offset} (hbuf : bufferBase ≤ off.toNat) : ∃ k, byteTarget off = .ok k := by
  have hoff : bufferOffset (off.toNat - bufferBase) = off := by
    rw [bufferOffset, Nat.add_sub_cancel' hbuf, BitVec.ofNat_toNat, BitVec.setWidth_eq]
  have hlt := off.isLt
  have hindex := byteTarget_bufferOffset (k := off.toNat - bufferBase) (by rw [bufferBase]; omega)
  exact ⟨_, hoff ▸ hindex⟩

/-- A 32-bit access to an offset without a word stops as the bus error says, whether it reads or writes. -/
theorem takeAction_of_wordTarget_error {a : HostAction} {off : Offset} {v : Word} {e : BusError}
    (ha : a ∈ [HostAction.rd32 off, .wr32 off v]) (he : wordTarget off = .error e) (s : State) :
    s.takeAction a = busStop e off := by
  simp only [List.mem_cons, List.not_mem_nil, or_false] at ha
  rcases ha with rfl | rfl <;> simp only [State.takeAction, he]

theorem takeAction_of_byteTarget_error {a : HostAction} {off : Offset} {b : Byte} {e : BusError}
    (ha : a ∈ [HostAction.rd8 off, .wr8 off b]) (he : byteTarget off = .error e) (s : State) :
    s.takeAction a = busStop e off := by
  simp only [List.mem_cons, List.not_mem_nil, or_false] at ha
  rcases ha with rfl | rfl <;> simp only [State.takeAction, he]

theorem wellFormed_of_wordTarget {a : HostAction} {off : Offset} {v : Word}
    (ha : a ∈ [HostAction.rd32 off, .wr32 off v]) (hx : ∃ x, wordTarget off = .ok x) : a.wellFormed = true := by
  simp only [List.mem_cons, List.not_mem_nil, or_false] at ha
  rcases ha with rfl | rfl <;> exact isOk_iff_exists.2 hx

theorem wellFormed_of_byteTarget {a : HostAction} {off : Offset} {b : Byte}
    (ha : a ∈ [HostAction.rd8 off, .wr8 off b]) (hk : ∃ k, byteTarget off = .ok k) : a.wellFormed = true := by
  simp only [List.mem_cons, List.not_mem_nil, or_false] at ha
  rcases ha with rfl | rfl <;> exact isOk_iff_exists.2 hk

/-- Settles O42: the map gives each offset's target or bus error, and the access goes on or stops with it. -/
theorem busErrorAccessesStop : Obligations.BusErrorAccessesStop := by
  intro s off rest v b bits o reserved
  have hres : reserved ↔ isReserved off = true := (isReserved_iff off).symm
  simp only [hres, Bool.not_eq_true]
  refine ⟨fun a ha hinbox => ?word, fun a ha hinbox => ?byte, fun hinbox => ?other⟩ <;> rw [step_cons hinbox]
  case word =>
    exact ⟨fun h => takeAction_of_wordTarget_error ha (wordTarget_of_reserved h) _,
      fun h => takeAction_of_wordTarget_error ha (wordTarget_of_bufferBase_le h) _,
      fun hlt h hmis => takeAction_of_wordTarget_error ha (wordTarget_of_misaligned h hlt hmis) _,
      fun hlt h halign =>
        (State.exists_takeAction_iff _ a).2 (wellFormed_of_wordTarget ha (exists_wordTarget h hlt halign))⟩
  case byte =>
    exact ⟨fun h => takeAction_of_byteTarget_error ha (byteTarget_of_reserved h) _,
      fun hlt h => takeAction_of_byteTarget_error ha (byteTarget_of_lt_bufferBase h hlt) _,
      fun hbuf => (State.exists_takeAction_iff _ a).2 (wellFormed_of_byteTarget ha (exists_byteTarget hbuf))⟩
  case other =>
    constructor <;> intro h <;> simp only [State.takeAction, otherWidthError, h] <;> rfl

/-! ### One action a step (`20_memory.md` R50, `70_reset_and_hazards.md` R174) -/

/-- Settles O7: the idle engine. -/
theorem idleEngineStays : Obligations.IdleEngineStays := fun _ => step_nil

/-- A step that goes on is idle, or it is the first action on the state without it. -/
theorem step_cases {s t : State} (h : step s = .next t) :
    (s.inbox = [] ∧ t = s) ∨
    ∃ a rest, s.inbox = a :: rest ∧ ({ s with inbox := rest } : State).takeAction a = .next t := by
  cases hinbox : s.inbox with
  | nil =>
    rw [step_nil hinbox] at h
    cases h
    exact .inl ⟨rfl, rfl⟩
  | cons a rest => exact .inr ⟨a, rest, rfl, step_cons hinbox ▸ h⟩

/-- Everything a command can do (`40_crc.md` R83, R84, `41_rsa.md` R110, R111, `60_exceptions.md` R142). -/
theorem exec_cases {i : Instr} {s t : State} (h : exec i s = .next t) :
    (i = .nop ∧ t = s) ∨
    (i = .getcrc ∧ t = ({ s with crcRes := s.crcRange s.crcOff s.crcLen }).nextDraw) ∨
    (∃ d b, i = .checkcrc d ∧ t = ({ s with crcRes := s.crcRange s.crcOff s.crcLen }.setMatch b).nextDraw) ∨
    (s.usesZeroModulus i ∧ t = s.raise .arithFault (encode i)) ∨
    (i = .rsaenc ∧ s.n.toNat ≠ 0 ∧ t = (s.putCiphertext (natToBytes s.encryptNat)).nextDraw) ∨
    (i = .rsadec ∧ (s.p.toNat ≠ 0 ∧ s.q.toNat ≠ 0) ∧ t = (s.putPlaintext (natToBytes s.decryptNat)).nextDraw) := by
  by_cases hzero : s.usesZeroModulus i
  · rw [exec_of_usesZeroModulus hzero] at h
    cases h
    exact .inr (.inr (.inr (.inl ⟨hzero, rfl⟩)))
  · cases i with
    | nop =>
      cases h
      exact .inl ⟨rfl, rfl⟩
    | getcrc =>
      cases h
      exact .inr (.inl ⟨rfl, rfl⟩)
    | checkcrc d =>
      cases h
      exact .inr (.inr (.inl ⟨d, _, rfl, rfl⟩))
    | rsaenc =>
      rw [exec_rsaenc_of_ne_zero hzero] at h
      cases h
      exact .inr (.inr (.inr (.inr (.inl ⟨rfl, hzero, rfl⟩))))
    | rsadec =>
      obtain ⟨hp, hq⟩ := not_or.1 hzero
      rw [exec_rsadec_of_ne_zero hp hq] at h
      cases h
      exact .inr (.inr (.inr (.inr (.inr ⟨rfl, ⟨hp, hq⟩, rfl⟩))))

/-- No command touches the host's list or `BUFLEN`. -/
theorem exec_inbox_bufLen {i : Instr} {s t : State} (h : exec i s = .next t) :
    t.inbox = s.inbox ∧ t.bufLen = s.bufLen := by
  rcases exec_cases h with
    ⟨-, rfl⟩ | ⟨-, rfl⟩ | ⟨d, b, -, rfl⟩ | ⟨-, rfl⟩ | ⟨-, -, rfl⟩ | ⟨-, -, rfl⟩ <;> exact ⟨rfl, rfl⟩

theorem issue_inbox_bufLen {s t : State} {w : Word} (h : s.issue w = .next t) :
    t.inbox = s.inbox ∧ t.bufLen = s.bufLen := by
  rcases issue_cases h with ⟨-, rfl⟩ | ⟨-, e, -, rfl⟩ | ⟨-, i, -, hexec⟩
  · exact ⟨rfl, rfl⟩
  · exact ⟨rfl, rfl⟩
  · exact exec_inbox_bufLen hexec

/-- A write of a scalar register that only stores: `STATUS` by error clear, or one of the four registers the host owns. -/
theorem State.writeScalar_frame (s : State) (r : ScalarReg) (v : Word) :
    s.writeScalar r v =
      { s with
        status := (s.writeScalar r v).status, bytePos := (s.writeScalar r v).bytePos,
        crcOff := (s.writeScalar r v).crcOff, crcLen := (s.writeScalar r v).crcLen,
        crcExp := (s.writeScalar r v).crcExp } := by
  cases r with
  | status =>
    simp only [State.writeScalar, State.writeStatus]
    split <;> rfl
  | _ => rfl

/-- No host action touches the rest of the list or `BUFLEN`, reset included (entry 8). -/
theorem takeAction_inbox_bufLen {a : HostAction} {s t : State} (h : s.takeAction a = .next t) :
    t.inbox = s.inbox ∧ t.bufLen = s.bufLen := by
  rcases takeAction_cases h with
    ⟨off, x, -, -, rfl⟩ | ⟨off, w, -, -, hissue⟩ | ⟨off, v, r, -, -, -, rfl⟩ | ⟨off, v, k, j, -, -, rfl⟩ |
    ⟨off, k, -, -, rfl⟩ | ⟨off, b, k, -, -, rfl⟩ | ⟨-, rfl⟩
  · exact ⟨rfl, rfl⟩
  · exact issue_inbox_bufLen hissue
  · rw [State.writeScalar_frame]
    exact ⟨rfl, rfl⟩
  · rw [State.writeKeyWord_frame]
    exact ⟨rfl, rfl⟩
  · exact ⟨rfl, rfl⟩
  · exact ⟨rfl, rfl⟩
  · exact ⟨rfl, rfl⟩

/-- Settles O8: the step drops the first action before it is taken, and no action touches the rest. -/
theorem oneActionPerStep : Obligations.OneActionPerStep := by
  intro s t h
  rcases step_cases h with ⟨hinbox, rfl⟩ | ⟨a, rest, hinbox, hact⟩
  · rw [hinbox]
    exact ⟨rfl, rfl⟩
  · rw [hinbox]
    exact takeAction_inbox_bufLen hact

/-- Settles O9, by induction on the list: its first action is well formed, so the step goes on with the rest. -/
theorem wellFormedRunsReachTheirEnd : Obligations.WellFormedRunsReachTheirEnd := by
  intro s hwf
  induction hinbox : s.inbox generalizing s with
  | nil => exact ⟨s, rfl, hinbox, rfl⟩
  | cons a rest ih =>
    have hnext : s.nextWellFormed = true := by
      simp only [State.nextWellFormed, hinbox]
      exact hwf a (by simp [hinbox])
    obtain ⟨u, hu⟩ := (onlyMalformedAccessesStop s).2 hnext
    obtain ⟨huinbox, hulen⟩ := oneActionPerStep s u hu
    rw [hinbox, List.tail_cons] at huinbox
    obtain ⟨t, hrun, htinbox, htlen⟩ :=
      ih u (fun b hb => hwf b (by rw [hinbox]; exact List.mem_cons_of_mem _ (huinbox ▸ hb))) huinbox
    refine ⟨t, ?_, htinbox, htlen.trans hulen⟩
    rw [List.length_cons, run_succ_of_next Sys2Proof.core hu]
    exact hrun

/-- Settles O4: the offset of `CMD` issues the word, and with the lock off a decoded word is its command. -/
theorem stepRunsDecodedCommand : Obligations.StepRunsDecodedCommand := by
  have hrun : ∀ (s : State) (w : Word) (rest : List HostAction) (i : Instr),
      s.inbox = .wr32 0#22 w :: rest → s.err = false → decode w = .ok i →
      step s = exec i { s with inbox := rest } := by
    intro s w rest i hinbox herr hw
    rw [step_cmd hinbox]
    exact State.issue_of_decode herr hw
  refine ⟨hrun, fun s nbits w i herr hw => ?_⟩
  have hdecode : decode (BitVec.ofNat 32 (w % 2 ^ nbits)) = .ok i := by
    unfold decodeTableWord at hw
    split at hw <;> cases hw
    assumption
  exact hrun (s.withFetchWord nbits w) _ s.inbox i rfl herr hdecode

end Sys2Proof.Machine
end

section
namespace Sys2Proof.Machine

/-! ### What a step does to `STATUS`, `CAUSE` and `EINFO` (`10_state.md` R14 to R16) -/

/-- The records fault entry may leave: the fault with the word that caused it (`60_exceptions.md` R140). -/
def EngineFault.records (w : Word) : EngineFault → Prop
  | .illegalCmd => ∃ e, decode w = .error e
  | .arithFault => w = 0x00000010#32 ∨ w = 0x00000011#32

/-- ARITH_FAULT records the word of the cipher command that raised it (entry 7). -/
theorem records_arithFault_encode {i : Instr} (hi : i = .rsaenc ∨ i = .rsadec) :
    EngineFault.arithFault.records (encode i) := by
  rcases hi with rfl | rfl
  · exact .inl rfl
  · exact .inr rfl

/-- The ways a step can treat the flags and the fault record, by the host action that is taken. -/
inductive FlagChange (s t : State) : Prop
  /-- Nothing of them is written. -/
  | kept (hstatus : t.status = s.status) (hcause : t.cause = s.cause) (heinfo : t.einfo = s.einfo)
  /-- The platform's reset (`70_reset_and_hazards.md` R160). -/
  | reset (hact : s.inbox.head? = some .reset) (hstatus : t.status = 0) (hcause : t.cause = 0) (heinfo : t.einfo = 0)
  /-- The host's write of `STATUS` (`60_exceptions.md` R147). -/
  | statusWritten (v : Word) (hact : s.inbox.head? = some (.wr32 4#22 v)) (hstatus : t.status = (s.writeStatus v).status)
      (hcause : t.cause = s.cause) (heinfo : t.einfo = s.einfo)
  /-- CHECKCRC (`40_crc.md` R84). -/
  | matchSet (d b : Bool) (herr : s.err = false) (hact : s.inbox.head? = some (.wr32 0#22 (encode (.checkcrc d))))
      (hstatus : t.status = (s.setMatch b).status) (hcause : t.cause = s.cause) (heinfo : t.einfo = s.einfo)
  /-- Fault entry (`60_exceptions.md` R144). -/
  | raised (f : EngineFault) (w : Word) (herr : s.err = false) (hact : s.inbox.head? = some (.wr32 0#22 w))
      (hrecord : f.records w) (hstatus : t.status = s.setErr.status) (hcause : t.cause = f.code) (heinfo : t.einfo = w)

/-- Command issue: the lock, an illegal word, a command that writes no flag, CHECKCRC, or a cipher command's fault (R145). -/
theorem flagChange_of_step_cmd {s t : State} {w : Word} {rest : List HostAction}
    (hinbox : s.inbox = .wr32 0#22 w :: rest) (h : step s = .next t) : FlagChange s t := by
  have hact : s.inbox.head? = some (.wr32 0#22 w) := by rw [hinbox]; rfl
  rw [step_cmd hinbox] at h
  rcases issue_cases h with ⟨-, rfl⟩ | ⟨herr, e, hw, rfl⟩ | ⟨herr, i, hw, hexec⟩
  · exact .kept rfl rfl rfl
  · exact .raised .illegalCmd w herr hact ⟨e, hw⟩ rfl rfl rfl
  · obtain rfl := encode_eq_of_decode hw
    rcases exec_flags hexec with ⟨hstatus, hcause, heinfo⟩ | ⟨d, b, rfl, hstatus, hcause, heinfo⟩ | ⟨hi, rfl⟩
    · exact .kept hstatus hcause heinfo
    · exact .matchSet d b herr hact hstatus hcause heinfo
    · exact .raised .arithFault _ herr hact (records_arithFault_encode hi) rfl rfl rfl

theorem State.writeScalar_status_of_ne (s : State) {r : ScalarReg} (v : Word) (hr : r ≠ .status) :
    (s.writeScalar r v).status = s.status := by
  cases r with
  | status => exact absurd rfl hr
  | _ => rfl

theorem State.writeStatus_status (s : State) (v : Word) :
    (s.writeStatus v).status = if v.getLsbD 0 then s.status &&& ~~~errMask else s.status := by
  unfold State.writeStatus
  split <;> rfl

theorem step_flagChange {s t : State} (h : step s = .next t) : FlagChange s t := by
  rcases step_cases h with ⟨-, rfl⟩ | ⟨a, rest, hinbox, hact⟩
  · exact .kept rfl rfl rfl
  have hhead : s.inbox.head? = some a := by rw [hinbox]; rfl
  rcases takeAction_cases hact with
    ⟨off, x, -, -, rfl⟩ | ⟨off, w, rfl, hx, -⟩ | ⟨off, v, r, rfl, hx, -, rfl⟩ | ⟨off, v, k, j, -, -, rfl⟩ |
    ⟨off, k, -, -, rfl⟩ | ⟨off, b, k, -, -, rfl⟩ | ⟨rfl, rfl⟩
  · exact .kept rfl rfl rfl
  · obtain rfl := offsetOf_of_wordTarget hx
    exact flagChange_of_step_cmd hinbox h
  · obtain rfl := offsetOf_of_wordTarget hx
    by_cases hr : r = .status
    · subst hr
      have hstatus := State.writeStatus_status { s with inbox := rest } v
      rw [State.writeScalar_frame]
      exact .statusWritten v hhead (hstatus.trans (s.writeStatus_status v).symm) rfl rfl
    · have hstatus := State.writeScalar_status_of_ne { s with inbox := rest } v hr
      rw [State.writeScalar_frame]
      exact .kept hstatus rfl rfl
  · rw [State.writeKeyWord_frame]
    exact .kept rfl rfl rfl
  · exact .kept rfl rfl rfl
  · exact .kept rfl rfl rfl
  · exact .reset hhead rfl rfl rfl

theorem State.err_congr {s t : State} (h : t.status = s.status) : t.err = s.err := by
  rw [State.err, State.err, h]

theorem State.matched_congr {s t : State} (h : t.status = s.status) : t.matched = s.matched := by
  rw [State.matched, State.matched, h]

/-- Settles O30: with `ERR` set before and after, the step was neither fault entry nor reset. -/
theorem firstFaultRecordIsKept : Obligations.FirstFaultRecordIsKept := by
  intro s t h hs ht
  cases step_flagChange h with
  | kept _ hcause heinfo => exact ⟨hcause, heinfo⟩
  | reset _ hstatus =>
    rw [State.err, hstatus] at ht
    exact absurd ht (by decide)
  | statusWritten _ _ _ hcause heinfo => exact ⟨hcause, heinfo⟩
  | matchSet _ _ _ _ _ hcause heinfo => exact ⟨hcause, heinfo⟩
  | raised _ _ herr => exact absurd hs (by simp [herr])

/-- Settles O31: only error clear and reset leave a smaller `ERR`. -/
theorem errClearedOnlyByHostOrReset : Obligations.ErrClearedOnlyByHostOrReset := by
  intro s t h hs ht
  cases step_flagChange h with
  | kept hstatus => exact absurd ht (by simp [State.err_congr hstatus, hs])
  | reset hact => exact .inl hact
  | statusWritten v hact hstatus =>
    have herr : t.err = (s.err && !v.getLsbD 0) := (State.err_congr hstatus).trans (s.writeStatus_spec v).1
    rw [ht, hs] at herr
    exact .inr ⟨v, by simpa using herr.symm, hact⟩
  | matchSet _ _ herr => exact absurd hs (by simp [herr])
  | raised _ _ herr => exact absurd hs (by simp [herr])

/-- Settles O32: error clear and fault entry leave `MATCH`, so what changes it is CHECKCRC or reset. -/
theorem matchWrittenOnlyByCheckcrc : Obligations.MatchWrittenOnlyByCheckcrc := by
  intro s t h hne
  cases step_flagChange h with
  | kept hstatus => exact absurd (State.matched_congr hstatus) hne
  | reset hact => exact .inl hact
  | statusWritten v _ hstatus => exact absurd ((State.matched_congr hstatus).trans (s.writeStatus_spec v).2.1) hne
  | matchSet d _ herr hact => exact .inr ⟨herr, d, hact⟩
  | raised _ _ _ _ _ hstatus => exact absurd ((State.matched_congr hstatus).trans s.setErr_matched) hne

theorem EngineFault.code_cases (f : EngineFault) : f.code = 0x00000001#32 ∨ f.code = 0x00000002#32 := by
  cases f
  · exact .inl rfl
  · exact .inr rfl

/-- Settles O33: a new record comes from fault entry or reset. -/
theorem faultRecordWrittenOnlyByFaultEntry : Obligations.FaultRecordWrittenOnlyByFaultEntry := by
  intro s t h hne
  have hnot : ¬(t.cause = s.cause ∧ t.einfo = s.einfo) := fun ⟨hcause, heinfo⟩ => hne.elim (· hcause) (· heinfo)
  cases step_flagChange h with
  | kept _ hcause heinfo => exact absurd ⟨hcause, heinfo⟩ hnot
  | reset hact => exact .inl hact
  | statusWritten _ _ _ hcause heinfo => exact absurd ⟨hcause, heinfo⟩ hnot
  | matchSet _ _ _ _ _ hcause heinfo => exact absurd ⟨hcause, heinfo⟩ hnot
  | raised f w herr hact _ hstatus hcause heinfo =>
    exact .inr ⟨w, hact, herr, (State.err_congr hstatus).trans s.setErr_err, heinfo, hcause ▸ f.code_cases⟩

/-! ### The invariant's part about the flags -/

/-! Writes of `ERR` and `MATCH` leave the reserved bits 31:2 at 0 (R14). -/

theorem State.setErr_status_reserved {s : State} (h : s.status >>> 2 = 0) : s.setErr.status >>> 2 = 0 := by
  rw [State.setErr_status, BitVec.ushiftRight_or_distrib, h]
  rfl

theorem State.clearErr_status_reserved {s : State} (h : s.status >>> 2 = 0) : s.clearErr.status >>> 2 = 0 := by
  rw [State.clearErr_status, BitVec.ushiftRight_and_distrib, h]
  exact BitVec.zero_and

theorem State.writeStatus_status_reserved {s : State} (v : Word) (h : s.status >>> 2 = 0) :
    (s.writeStatus v).status >>> 2 = 0 := by
  unfold State.writeStatus
  split
  · exact State.clearErr_status_reserved h
  · exact h

theorem State.setMatch_status_reserved {s : State} (b : Bool) (h : s.status >>> 2 = 0) :
    (s.setMatch b).status >>> 2 = 0 := by
  rw [State.setMatch_status, BitVec.ushiftRight_or_distrib, BitVec.ushiftRight_and_distrib, h]
  cases b <;> simp [matchMask]

theorem step_keeps_statusReserved {s t : State} (hs : s.status >>> 2 = 0) (h : step s = .next t) :
    t.status >>> 2 = 0 := by
  cases step_flagChange h with
  | kept hstatus => rw [hstatus, hs]
  | reset _ hstatus => rw [hstatus]; rfl
  | statusWritten v _ hstatus => rw [hstatus, State.writeStatus_status_reserved v hs]
  | matchSet _ b _ _ hstatus => rw [hstatus, State.setMatch_status_reserved b hs]
  | raised _ _ _ _ _ hstatus => rw [hstatus, State.setErr_status_reserved hs]

/-- A record stays legal when `CAUSE` and `EINFO` stay and `ERR` is not set (`60_exceptions.md` R140). -/
theorem State.faultRecordLegal.of_err_imp {s t : State} (hs : s.faultRecordLegal) (hcause : t.cause = s.cause)
    (heinfo : t.einfo = s.einfo) (herr : s.err = false → t.err = false) : t.faultRecordLegal := by
  unfold State.faultRecordLegal
  rw [hcause, heinfo]
  exact hs.imp_left fun ⟨hnone, hzero, hclear⟩ => ⟨hnone, hzero, herr hclear⟩

theorem EngineFault.records.faultRecordLegal {f : EngineFault} {t : State} (h : f.records t.einfo)
    (hcause : t.cause = f.code) : t.faultRecordLegal := by
  cases f with
  | illegalCmd => exact .inr (.inl ⟨hcause, h⟩)
  | arithFault => exact .inr (.inr ⟨hcause, h⟩)

theorem step_keeps_faultRecordLegal {s t : State} (hs : s.faultRecordLegal) (h : step s = .next t) :
    t.faultRecordLegal := by
  cases step_flagChange h with
  | kept hstatus hcause heinfo => exact hs.of_err_imp hcause heinfo (State.err_congr hstatus).trans
  | reset _ hstatus hcause heinfo => exact .inl ⟨hcause, heinfo, by rw [State.err, hstatus]; rfl⟩
  | statusWritten v _ hstatus hcause heinfo =>
    refine hs.of_err_imp hcause heinfo fun hclear => ?_
    rw [State.err_congr hstatus, (s.writeStatus_spec v).1, hclear, Bool.false_and]
  | matchSet _ b herr _ hstatus hcause heinfo =>
    exact hs.of_err_imp hcause heinfo fun hclear => (State.err_congr hstatus).trans ((s.setMatch_err b).trans hclear)
  | raised f w _ _ hrecord _ hcause heinfo => exact EngineFault.records.faultRecordLegal (heinfo ▸ hrecord) hcause

/-! ### The invariant's part about the buffer and `RLEN` -/

/-- The fields of `State.Inv` that do not speak of flags: `RLEN`, `BUFLEN` and the buffer. -/
structure State.BufferInv (s : State) : Prop where
  rlenBound : s.rlen.toNat ≤ 256
  bufLenLegal : 1 ≤ s.bufLen ∧ s.bufLen ≤ Config.maxBufLen
  bufCanonical : s.buf.wf = true
  bufInside : ∀ c ∈ s.buf, c.1 < s.bufLen

theorem State.inv_iff (s : State) :
    s.Inv ↔ s.status >>> 2 = 0 ∧ s.faultRecordLegal ∧ s.BufferInv :=
  ⟨fun ⟨hstatus, hrecord, hrlen, hlen, hwf, hin⟩ => ⟨hstatus, hrecord, hrlen, hlen, hwf, hin⟩,
    fun ⟨hstatus, hrecord, hrlen, hlen, hwf, hin⟩ => ⟨hstatus, hrecord, hrlen, hlen, hwf, hin⟩⟩

theorem State.BufferInv.memWrite {s : State} (h : s.BufferInv) (a : Nat) (v : Byte) : (s.memWrite a v).BufferInv where
  rlenBound := h.rlenBound
  bufLenLegal := h.bufLenLegal
  bufCanonical := Memory.wf_writeIn _ a v h.bufCanonical
  bufInside := Memory.inside_writeIn a v h.bufInside

theorem State.BufferInv.memWriteSeq {s : State} (h : s.BufferInv) (a : Nat) (bs : List Byte) :
    (s.memWriteSeq a bs).BufferInv where
  rlenBound := h.rlenBound
  bufLenLegal := h.bufLenLegal
  bufCanonical := Memory.wf_writeSeqIn _ bs a h.bufCanonical
  bufInside := Memory.inside_writeSeqIn bs a h.bufInside

/-- The cipher commands write the cursor and `RLEN` after the buffer. -/
theorem State.BufferInv.setLength {s : State} (h : s.BufferInv) (cursor : Word) {len : Nat} (hlen : len ≤ 256) :
    ({ s with bytePos := cursor, rlen := BitVec.ofNat 32 len } : State).BufferInv where
  rlenBound := (toNat_ofNat_word (by omega)).trans_le hlen
  bufLenLegal := h.bufLenLegal
  bufCanonical := h.bufCanonical
  bufInside := h.bufInside

theorem State.BufferInv.afterReset {s : State} (h : s.BufferInv) : s.afterReset.BufferInv where
  rlenBound := Nat.zero_le 256
  bufLenLegal := h.bufLenLegal
  bufCanonical := rfl
  bufInside := fun _ hc => absurd hc List.not_mem_nil

/-- `BufferInv` speaks of `RLEN`, `BUFLEN` and the buffer alone. -/
theorem State.BufferInv.congr {s t : State} (h : s.BufferInv) (hrlen : t.rlen = s.rlen) (hlen : t.bufLen = s.bufLen)
    (hbuf : t.buf = s.buf) : t.BufferInv where
  rlenBound := hrlen ▸ h.rlenBound
  bufLenLegal := hlen ▸ h.bufLenLegal
  bufCanonical := hbuf ▸ h.bufCanonical
  bufInside := by rw [hbuf, hlen]; exact h.bufInside

theorem State.BufferInv.putCiphertext {s : State} (h : s.BufferInv) {out : List Byte} (hout : out.length ≤ 256) :
    (s.putCiphertext out).BufferInv :=
  ((h.memWrite 0 _).memWriteSeq 1 out).setLength _ hout

theorem State.BufferInv.putPlaintext {s : State} (h : s.BufferInv) {out : List Byte} (hout : out.length ≤ 256) :
    (s.putPlaintext out).BufferInv :=
  (h.memWriteSeq 0 out).setLength _ hout

theorem exec_keeps_bufferInv {i : Instr} {s t : State} (hs : s.BufferInv) (h : exec i s = .next t) : t.BufferInv := by
  rcases exec_cases h with
    ⟨-, rfl⟩ | ⟨-, rfl⟩ | ⟨d, b, -, rfl⟩ | ⟨-, rfl⟩ | ⟨-, hn, rfl⟩ | ⟨-, ⟨hp, hq⟩, rfl⟩
  · exact hs
  · exact hs.congr rfl rfl rfl
  · exact hs.congr rfl rfl rfl
  · exact hs.congr rfl rfl rfl
  · have hlen := State.byteLength_encryptNat_le hn
    exact (hs.putCiphertext (out := natToBytes s.encryptNat) (by rw [natToBytes_length]; omega)).congr rfl rfl rfl
  · have hlen := State.byteLength_decryptNat_le hp hq
    exact (hs.putPlaintext (out := natToBytes s.decryptNat) (by rw [natToBytes_length]; omega)).congr rfl rfl rfl

theorem issue_keeps_bufferInv {s t : State} {w : Word} (hs : s.BufferInv) (h : s.issue w = .next t) : t.BufferInv := by
  rcases issue_cases h with ⟨-, rfl⟩ | ⟨-, e, -, rfl⟩ | ⟨-, i, -, hexec⟩
  · exact hs
  · exact hs.congr rfl rfl rfl
  · exact exec_keeps_bufferInv hs hexec

theorem takeAction_keeps_bufferInv {a : HostAction} {s t : State} (hs : s.BufferInv) (h : s.takeAction a = .next t) :
    t.BufferInv := by
  rcases takeAction_cases h with
    ⟨off, x, -, -, rfl⟩ | ⟨off, w, -, -, hissue⟩ | ⟨off, v, r, -, -, -, rfl⟩ | ⟨off, v, k, j, -, -, rfl⟩ |
    ⟨off, k, -, -, rfl⟩ | ⟨off, b, k, -, -, rfl⟩ | ⟨-, rfl⟩
  · exact hs.congr rfl rfl rfl
  · exact issue_keeps_bufferInv hs hissue
  · rw [State.writeScalar_frame]
    exact hs.congr rfl rfl rfl
  · rw [State.writeKeyWord_frame]
    exact hs.congr rfl rfl rfl
  · exact hs.congr rfl rfl rfl
  · exact hs.memWrite k b
  · exact hs.afterReset

theorem step_keeps_bufferInv {s t : State} (hs : s.BufferInv) (h : step s = .next t) : t.BufferInv := by
  rcases step_cases h with ⟨-, rfl⟩ | ⟨a, rest, -, hact⟩
  · exact hs
  · exact takeAction_keeps_bufferInv (s := { s with inbox := rest }) (hs.congr rfl rfl rfl) hact

/-- Settles O47: the flags by what a step can do to them, the buffer and `RLEN` action by action. -/
theorem stepKeepsInvariant : Obligations.StepKeepsInvariant := by
  intro s t hinv h
  obtain ⟨hstatus, hrecord, hbuffer⟩ := s.inv_iff.1 hinv
  exact t.inv_iff.2
    ⟨step_keeps_statusReserved hstatus h, step_keeps_faultRecordLegal hrecord h, step_keeps_bufferInv hbuffer h⟩

/-! ### Reset (`10_state.md` R26, `70_reset_and_hazards.md` R160) -/

/-- The length of the buffer is legal whatever the free choice behind it is (entry 3). -/
theorem Config.bufLen_legal : 1 ≤ Config.bufLen ∧ Config.bufLen ≤ Config.maxBufLen := by
  have hseed : Config.bufLenSeed % Config.maxBufLen < Config.maxBufLen := Nat.mod_lt _ (by decide)
  unfold Config.bufLen
  omega

theorem State.afterReset_keyValue (s : State) (k : KeyReg) : s.afterReset.keyValue k = 0 := by
  cases k <;> simp [State.keyValue]

/-- The reset state's key registers are those that a reset leaves. -/
theorem State.resetWith_keyValue (len : Nat) (k : KeyReg) : (State.resetWith len).keyValue k = 0 := by
  rw [← (State.resetWith len).afterReset_keyValue k]
  cases k <;> rfl

/-- Settles O44: the registers by the definition of the reset state, the length by `Config.bufLen`'s range. -/
theorem resetValues : Obligations.ResetValues :=
  ⟨rfl, rfl, rfl, rfl, rfl, rfl, rfl, rfl, rfl, State.resetWith_keyValue Config.bufLen, Config.bufLen_legal⟩

/-- Settles O45: reset is taken from every state. -/
theorem platformReset : Obligations.PlatformReset := by
  intro s rest hinbox
  exact ⟨_, step_cons hinbox, rfl, rfl, rfl, rfl, rfl, rfl, rfl, rfl, rfl, State.afterReset_keyValue _, rfl, rfl⟩

/-- Settles O46: no record, an empty buffer and a legal length. -/
theorem resetMeetsInvariant : Obligations.ResetMeetsInvariant where
  statusReserved := rfl
  faultRecord := .inl ⟨rfl, rfl, rfl⟩
  rlenBound := Nat.zero_le 256
  bufLenLegal := Config.bufLen_legal
  bufCanonical := State.reset_buf_wf
  bufInside := fun _ hc => absurd hc List.not_mem_nil

/-! ### Frames of the commands (`10_state.md` R11, R18, R22, `60_exceptions.md` R144) -/

/-- What the host alone writes: the key registers, the range's bounds and the expected value. -/
theorem exec_keeps_operands {i : Instr} {s t : State} (h : exec i s = .next t) :
    t.n = s.n ∧ t.e = s.e ∧ t.p = s.p ∧ t.q = s.q ∧ t.dp = s.dp ∧ t.dq = s.dq ∧ t.qinv = s.qinv ∧
      t.crcOff = s.crcOff ∧ t.crcLen = s.crcLen ∧ t.crcExp = s.crcExp ∧ t.bufLen = s.bufLen := by
  rcases exec_cases h with
    ⟨-, rfl⟩ | ⟨-, rfl⟩ | ⟨d, b, -, rfl⟩ | ⟨-, rfl⟩ | ⟨-, -, rfl⟩ | ⟨-, -, rfl⟩ <;> simp

theorem exec_keeps_buffer {i : Instr} {s t : State} (h : exec i s = .next t) (henc : i ≠ .rsaenc) (hdec : i ≠ .rsadec) :
    t.bytePos = s.bytePos ∧ t.rlen = s.rlen ∧ ∀ a, t.bufByte a = s.bufByte a := by
  rcases exec_cases h with
    ⟨-, rfl⟩ | ⟨-, rfl⟩ | ⟨d, b, -, rfl⟩ | ⟨-, rfl⟩ | ⟨rfl, -, -⟩ | ⟨rfl, -, -⟩
  · exact ⟨rfl, rfl, fun _ => rfl⟩
  · exact ⟨rfl, rfl, fun _ => rfl⟩
  · exact ⟨rfl, rfl, fun _ => rfl⟩
  · exact ⟨rfl, rfl, fun _ => rfl⟩
  · exact absurd rfl henc
  · exact absurd rfl hdec

theorem exec_keeps_crcRes {i : Instr} {s t : State} (h : exec i s = .next t) (hget : i ≠ .getcrc)
    (hcheck : ∀ d, i ≠ .checkcrc d) : t.crcRes = s.crcRes := by
  rcases exec_cases h with
    ⟨-, rfl⟩ | ⟨rfl, -⟩ | ⟨d, b, rfl, -⟩ | ⟨-, rfl⟩ | ⟨-, -, rfl⟩ | ⟨-, -, rfl⟩
  · rfl
  · exact absurd rfl hget
  · exact absurd rfl (hcheck d)
  · rfl
  · rfl
  · rfl

/-- Settles O34: each way a command can end writes only its own fields. -/
theorem commandsWriteOnlyTheirRegisters : Obligations.CommandsWriteOnlyTheirRegisters := fun _ _ _ h =>
  ⟨exec_keeps_operands h, exec_keeps_buffer h, exec_keeps_crcRes h⟩

/-- A cipher command with a zero modulus is what a fault of a command is. -/
theorem State.usesZeroModulus_cases {s : State} {i : Instr} (h : s.usesZeroModulus i) :
    i = .rsaenc ∧ s.n.toNat = 0 ∨ i = .rsadec ∧ (s.p.toNat = 0 ∨ s.q.toNat = 0) := by
  cases i with
  | nop | getcrc | checkcrc d => exact h.elim
  | rsaenc => exact .inl ⟨rfl, h⟩
  | rsadec => exact .inr ⟨rfl, h⟩

/-- Settles O29: a command without a zero modulus keeps `ERR`, and one with a zero modulus is fault entry. -/
theorem faultsArePrecise : Obligations.FaultsArePrecise := by
  intro i s t h hs ht
  by_cases hzero : s.usesZeroModulus i
  · rw [exec_of_usesZeroModulus hzero] at h
    cases h
    exact ⟨State.usesZeroModulus_cases hzero, s.raise_eq _ _, s.raise_matched _ _, fun _ => rfl⟩
  · obtain ⟨u, hu, herr, -⟩ := exec_of_not_usesZeroModulus hzero
    obtain rfl : u = t := by simpa [hu] using h
    exact absurd ht (by simp [herr, hs])

/-- Settles O20: the faults, the completions, and the key registers at reset. -/
theorem arithFaultExactlyOnZeroModulus : Obligations.ArithFaultExactlyOnZeroModulus :=
  ⟨fun _ => exec_rsaenc_of_zero, fun _ => exec_rsadec_of_zero,
    fun _ hn => ⟨_, exec_rsaenc_of_ne_zero hn, rfl, rfl, rfl⟩,
    fun _ hp hq => ⟨_, exec_rsadec_of_ne_zero hp hq, rfl, rfl, rfl⟩, State.resetWith_keyValue Config.bufLen⟩

end Sys2Proof.Machine
end

section
namespace Sys2Proof.Machine

open Sys2Proof.Reference

/-! ### Checksums (`40_crc.md` R82, R83, R85) -/

/-- Settles O12: the byte xored into the register may instead be fed in bit by bit. -/
theorem tableStepIsEightSerialSteps : Obligations.TableStepIsEightSerialSteps := crcStep_eq_serialByte

/-- Settles O13: byte by byte the two designs agree, on the bytes `MemRead` gives. -/
theorem crcRangeIsSerialCrc32 : Obligations.CrcRangeIsSerialCrc32 := State.crcRange_eq_serialCrc32

theorem State.crcRange_of_le (s : State) {off fin : Word} (h : fin.toNat ≤ off.toNat) : s.crcRange off fin = 0 := by
  rw [State.crcRange, State.rangeBytes, Nat.sub_eq_zero_of_le h, State.memReadSeq]
  decide

/-- Settles O16: no byte is read, and the seed's complement is 0. -/
theorem emptyRangeChecksumIsZero : Obligations.EmptyRangeChecksumIsZero := by
  intro s hempty
  have hzero := s.crcRange_of_le hempty
  refine ⟨⟨_, exec_getcrc s, hzero⟩, ⟨_, exec_checkcrc true s, hzero, ?_⟩,
    ⟨_, exec_checkcrc false s, hzero, ?_⟩⟩ <;>
    rw [State.nextDraw_matched, State.setMatch_matched, hzero]
  · rfl
  · exact decide_eq_decide.2 eq_comm

/-- Inside both buffers a checksum is a function of the bytes of its range. -/
theorem State.crcRange_congr {s t : State} {off fin : Word} (hs : fin.toNat ≤ s.bufLen) (ht : fin.toNat ≤ t.bufLen)
    (hbytes : ∀ i, off.toNat ≤ i → i < fin.toNat → s.bufByte i = t.bufByte i) :
    s.crcRange off fin = t.crcRange off fin := by
  rw [State.crcRange_eq_serialCrc32, State.crcRange_eq_serialCrc32]
  refine congrArg serialCrc32 (List.map_congr_left fun i hi => ?_)
  have hlt : off.toNat + i < fin.toNat := Nat.add_lt_of_lt_sub' (List.mem_range.1 hi)
  rw [State.memRead_of_lt (hlt.trans_le hs), State.memRead_of_lt (hlt.trans_le ht), hbytes _ (Nat.le_add_right ..) hlt]

/-- Settles O17: both results are checksums of the same range. -/
theorem checksumDependsOnItsRangeOnly : Obligations.ChecksumDependsOnItsRangeOnly := by
  intro s t s' t' hoff hlen hs ht hbytes hs' ht'
  rw [exec_getcrc] at hs' ht'
  cases hs'
  cases ht'
  show s.crcRange s.crcOff s.crcLen = t.crcRange t.crcOff t.crcLen
  rw [← hoff, ← hlen]
  exact State.crcRange_congr hs ht hbytes

/-! ### A key register and its words (`10_state.md` R22, R23) -/

/-- The first `n` base-`b` digits of a number are its residue. -/
theorem sum_digits_eq_mod (b v n : Nat) :
    ∑ j ∈ Finset.range n, v / b ^ j % b * b ^ j = v % b ^ n := by
  induction n with
  | zero => rw [Finset.sum_range_zero, Nat.pow_zero, Nat.mod_one]
  | succ n ih => rw [Finset.sum_range_succ, ih, Nat.mod_pow_succ, Nat.mul_comm (b ^ n)]

/-- The words of a window cover its register. -/
theorem KeyReg.width_le (k : KeyReg) : k.width ≤ 32 * keyWords k := by
  cases k <;> simp [KeyReg.width, keyWords]

theorem State.keyValue_lt (s : State) (k : KeyReg) : s.keyValue k < (2 ^ 32) ^ keyWords k := by
  rw [State.keyValue_eq, ← Nat.pow_mul]
  exact (s.keyReg k).isLt.trans_le (Nat.pow_le_pow_right (by omega) k.width_le)

theorem State.keyValue_eq_sum (s : State) (k : KeyReg) :
    s.keyValue k = ∑ j ∈ Finset.range (keyWords k), (s.readKeyWord k j).toNat * 2 ^ (32 * j) := by
  simp only [State.readKeyWord_toNat, Nat.pow_mul]
  rw [sum_digits_eq_mod, Nat.mod_eq_of_lt (s.keyValue_lt k)]

/-- Settles O40: the words are the register's digits in base `2 ^ 32`, and a window write changes its own word alone. -/
theorem keyRegisterIsSumOfItsWords : Obligations.KeyRegisterIsSumOfItsWords := fun s k =>
  ⟨s.keyValue_eq_sum k, fun _ hj x =>
    ⟨s.readKeyWord_writeKeyWord_same x hj, fun _ _ _ => s.readKeyWord_writeKeyWord_of_ne x⟩⟩

end Sys2Proof.Machine
end

section
namespace Sys2Proof.Machine

/-! ### What a completed cipher command leaves (`41_rsa.md` R110, R111) -/

theorem eq_of_exec_rsaenc {s t : State} (hn : s.n.toNat ≠ 0) (h : exec .rsaenc s = .next t) :
    t = (s.putCiphertext (natToBytes s.encryptNat)).nextDraw := by
  rw [exec_rsaenc_of_ne_zero hn] at h
  cases h
  rfl

theorem eq_of_exec_rsadec {s t : State} (hp : s.p.toNat ≠ 0) (hq : s.q.toNat ≠ 0) (h : exec .rsadec s = .next t) :
    t = (s.putPlaintext (natToBytes s.decryptNat)).nextDraw := by
  rw [exec_rsadec_of_ne_zero hp hq] at h
  cases h
  rfl

theorem natToBytes_length_pos (v : Nat) : 1 ≤ (natToBytes v).length := by
  rw [natToBytes_length]
  exact byteLength_pos v

theorem State.natToBytes_encryptNat_length_le {s : State} (hn : s.n.toNat ≠ 0) :
    (natToBytes s.encryptNat).length ≤ 255 := by
  rw [natToBytes_length]
  exact State.byteLength_encryptNat_le hn

theorem State.natToBytes_decryptNat_length_le {s : State} (hp : s.p.toNat ≠ 0) (hq : s.q.toNat ≠ 0) :
    (natToBytes s.decryptNat).length ≤ 256 := by
  rw [natToBytes_length]
  exact State.byteLength_decryptNat_le hp hq

theorem State.putCiphertext_rlen_toNat (s : State) {out : List Byte} (hlen : out.length ≤ 255) :
    (s.putCiphertext out).rlen.toNat = out.length :=
  toNat_ofNat_word (by omega)

theorem State.putCiphertext_bytePos_toNat (s : State) {out : List Byte} (hlen : out.length ≤ 255) :
    (s.putCiphertext out).bytePos.toNat = 1 + out.length :=
  toNat_ofNat_word (by omega)

theorem State.putPlaintext_rlen_toNat (s : State) {out : List Byte} (hlen : out.length ≤ 256) :
    (s.putPlaintext out).rlen.toNat = out.length :=
  toNat_ofNat_word (by omega)

/-- The length byte holds the count exactly (R103). -/
theorem State.bufByte_zero_putCiphertext_toNat (s : State) {out : List Byte} (hlen : out.length ≤ 255)
    (hbuf : 0 < s.bufLen) : ((s.putCiphertext out).bufByte 0).toNat = out.length := by
  rw [State.bufByte_putCiphertext, if_neg (Nat.not_le.2 hbuf), if_pos rfl]
  exact Nat.mod_eq_of_lt (by omega)

/-- Settles O24: the bounds are those of the result's length, which the length byte, the cursor and `RLEN` all hold exactly. -/
theorem cipherResultBounds : Obligations.CipherResultBounds := by
  constructor
  · intro s t hn h
    obtain rfl := eq_of_exec_rsaenc hn h
    have hlen := State.natToBytes_encryptNat_length_le hn
    have hrlen := s.putCiphertext_rlen_toNat hlen
    rw [State.nextDraw_rlen, hrlen]
    exact ⟨natToBytes_length_pos _, hlen, s.putCiphertext_bytePos_toNat hlen, s.bufByte_zero_putCiphertext_toNat hlen⟩
  · intro s t hp hq h
    obtain rfl := eq_of_exec_rsadec hp hq h
    have hlen := State.natToBytes_decryptNat_length_le hp hq
    rw [State.nextDraw_rlen, s.putPlaintext_rlen_toNat hlen]
    exact ⟨natToBytes_length_pos _, hlen, rfl⟩

/-! ### Reading back what a cipher command wrote -/

/-- Bytes that stand in the buffer one after the other are what `MemReadSeq` gives. -/
theorem State.memReadSeq_eq_of_bufByte {s : State} {a : Nat} {bs : List Byte} (hfit : a + bs.length ≤ s.bufLen)
    (hbytes : ∀ i < bs.length, s.bufByte (a + i) = bs.getD i 0) : s.memReadSeq a bs.length = bs := by
  refine List.ext_getElem (s.memReadSeq_length a _) fun i hi hi' => ?_
  have hread : s.memRead (a + i) = bs.getD i 0 := (State.memRead_of_lt (by omega)).trans (hbytes i hi')
  simp [State.memReadSeq_eq_map, hread, hi']

@[simp] theorem State.bufByte_nextDraw (s : State) (k : Nat) : s.nextDraw.bufByte k = s.bufByte k := rfl

/-- RSADEC's output is read back from index 0 when it fits. -/
theorem State.memReadSeq_putPlaintext (s : State) {out : List Byte} (hfit : out.length ≤ s.bufLen) :
    (s.putPlaintext out).nextDraw.memReadSeq 0 out.length = out := by
  refine State.memReadSeq_eq_of_bufByte (by simpa using hfit) fun i hi => ?_
  rw [State.bufByte_nextDraw, State.bufByte_putPlaintext, Nat.zero_add, if_neg (by omega), if_pos hi]

/-- RSADEC's result, read back, is the minimal form of its integer. -/
theorem exists_exec_rsadec_readback {s : State} (hp : s.p.toNat ≠ 0) (hq : s.q.toNat ≠ 0)
    (hfit : (natToBytes s.decryptNat).length ≤ s.bufLen) :
    ∃ t, exec .rsadec s = .next t ∧ t.memReadSeq 0 t.rlen.toNat = natToBytes s.decryptNat ∧ t.status = s.status := by
  refine ⟨_, exec_rsadec_of_ne_zero hp hq, ?_, rfl⟩
  rw [State.nextDraw_rlen, s.putPlaintext_rlen_toNat (State.natToBytes_decryptNat_length_le hp hq),
    s.memReadSeq_putPlaintext hfit]

/-- RSAENC's state once the host has set the cursor back to its framed block (R113). -/
def State.framedBlock (s : State) (out : List Byte) : State := { (s.putCiphertext out).nextDraw with bytePos := 0 }

@[simp] theorem State.framedBlock_bytePos (s : State) (out : List Byte) : (s.framedBlock out).bytePos = 0 := rfl

@[simp] theorem State.framedBlock_status (s : State) (out : List Byte) : (s.framedBlock out).status = s.status := by
  simp [State.framedBlock]

@[simp] theorem State.framedBlock_p (s : State) (out : List Byte) : (s.framedBlock out).p = s.p := by
  simp [State.framedBlock]

@[simp] theorem State.framedBlock_q (s : State) (out : List Byte) : (s.framedBlock out).q = s.q := by
  simp [State.framedBlock]

@[simp] theorem State.framedBlock_dp (s : State) (out : List Byte) : (s.framedBlock out).dp = s.dp := by
  simp [State.framedBlock]

@[simp] theorem State.framedBlock_dq (s : State) (out : List Byte) : (s.framedBlock out).dq = s.dq := by
  simp [State.framedBlock]

@[simp] theorem State.framedBlock_qinv (s : State) (out : List Byte) : (s.framedBlock out).qinv = s.qinv := by
  simp [State.framedBlock]

@[simp] theorem State.framedBlock_bufLen (s : State) (out : List Byte) : (s.framedBlock out).bufLen = s.bufLen := by
  simp [State.framedBlock]

theorem State.bufByte_framedBlock (s : State) (out : List Byte) (k : Nat) :
    (s.framedBlock out).bufByte k = (s.putCiphertext out).bufByte k := rfl

theorem State.cipherLen_framedBlock (s : State) {out : List Byte} (hlen : out.length ≤ 255)
    (hfit : 1 + out.length ≤ s.bufLen) : (s.framedBlock out).cipherLen = out.length := by
  have hbuf : 0 < s.bufLen := by omega
  have hin : (s.framedBlock out).bytePos.toNat < (s.framedBlock out).bufLen := by simpa using hbuf
  rw [State.cipherLen, State.memRead_of_lt hin, State.bufByte_framedBlock, State.framedBlock_bytePos]
  exact s.bufByte_zero_putCiphertext_toNat hlen hbuf

theorem State.ciphertext_framedBlock (s : State) {out : List Byte} (hlen : out.length ≤ 255)
    (hfit : 1 + out.length ≤ s.bufLen) : (s.framedBlock out).ciphertext = out := by
  have hcursor : (s.framedBlock out).bytePos.toNat + 1 = 1 := by simp
  rw [State.ciphertext, s.cipherLen_framedBlock hlen hfit, hcursor]
  refine State.memReadSeq_eq_of_bufByte (by rwa [State.framedBlock_bufLen]) fun i hi => ?_
  rw [State.bufByte_framedBlock, State.bufByte_putCiphertext, if_neg (by omega), if_neg (by omega), if_pos (by omega),
    Nat.add_sub_cancel_left]

/-- Settles O26: the length byte and the bytes after it are the framed block's. -/
theorem rsaencOutputIsRsadecInput : Obligations.RsaencOutputIsRsadecInput := by
  intro s t hn h hfit
  obtain rfl := eq_of_exec_rsaenc hn h
  have hlen := State.natToBytes_encryptNat_length_le hn
  rw [State.nextDraw_rlen, s.putCiphertext_rlen_toNat hlen] at hfit ⊢
  refine ⟨s.cipherLen_framedBlock hlen hfit, ?_⟩
  calc bytesToNat (s.framedBlock (natToBytes s.encryptNat)).ciphertext
      = bytesToNat (natToBytes s.encryptNat) := by rw [s.ciphertext_framedBlock hlen hfit]
    _ = s.encryptNat := bytesToNat_natToBytes _
    _ = bytesToNat s.plaintext ^ s.e.toNat % s.n.toNat := State.encryptNat_eq hn

/-! ### The CRT recombination (`41_rsa.md` R112) -/

theorem crtH_cast (qinv mP mQ : Nat) {p : Nat} (hp : p ≠ 0) :
    (crtH qinv mP mQ p : Int) = (qinv : Int) * ((mP : Int) - (mQ : Int)) % (p : Int) :=
  Int.toNat_of_nonneg (Int.emod_nonneg _ (Int.natCast_ne_zero.2 hp))

theorem crtDecrypt_mod_q (c dp dq qinv : Nat) {p q : Nat} (hp : p ≠ 0) (hq : q ≠ 0) :
    crtDecrypt c p q dp dq qinv % q = c ^ dq % q := by
  rw [crtDecrypt_eq c dp dq qinv hp hq, Nat.add_mul_mod_self_right, Nat.mod_mod]

/-- The recombination adds to `mQ` a multiple of `q` that is `mP - mQ` modulo `p` when `qinv` inverts `q` there. -/
theorem add_crtH_mul_modEq {p q qinv : Nat} (mP mQ : Nat) (hp : p ≠ 0) (hqinv : qinv * q ≡ 1 [MOD p]) :
    mQ + crtH qinv mP mQ p * q ≡ mP [MOD p] := by
  rw [← Int.natCast_modEq_iff] at hqinv ⊢
  push_cast at hqinv ⊢
  rw [crtH_cast qinv mP mQ hp]
  calc (mQ : Int) + (qinv * (mP - mQ) % p) * q
      ≡ mQ + (qinv * (mP - mQ)) * q [ZMOD p] := ((Int.mod_modEq _ _).mul_right _).add_left _
    _ = mQ + (qinv * q) * (mP - mQ) := by ring
    _ ≡ mQ + 1 * (mP - mQ) [ZMOD p] := (hqinv.mul_right _).add_left _
    _ = mP := by ring

theorem crtDecrypt_mod_p (c dp dq : Nat) {p q qinv : Nat} (hp : p ≠ 0) (hq : q ≠ 0) (hqinv : qinv * q ≡ 1 [MOD p]) :
    crtDecrypt c p q dp dq qinv % p = c ^ dp % p := by
  have hmod : crtDecrypt c p q dp dq qinv ≡ c ^ dp % p [MOD p] := by
    rw [crtDecrypt_eq c dp dq qinv hp hq]
    exact add_crtH_mul_modEq _ _ hp hqinv
  exact hmod.trans (Nat.mod_modEq _ _)

/-- Settles O25: the integer read back is the recombination, whose residues and bound are those of its two parts. -/
theorem rsadecCrtAlgebra : Obligations.RsadecCrtAlgebra := by
  intro s t hp hq h hfit
  obtain rfl := eq_of_exec_rsadec hp hq h
  rw [State.nextDraw_rlen, s.putPlaintext_rlen_toNat (State.natToBytes_decryptNat_length_le hp hq)] at hfit ⊢
  rw [s.memReadSeq_putPlaintext hfit, bytesToNat_natToBytes]
  exact ⟨crtDecrypt_mod_q _ _ _ _ hp hq, crtDecrypt_lt _ _ _ _ hp hq, crtDecrypt_mod_p _ _ _ hp hq⟩

/-! ### Encrypt, then decrypt (`41_rsa.md` R112, second part) -/

/-- Fermat's little theorem for exponents that are 1 modulo `p - 1`; multiples of `p` included. -/
theorem pow_modEq_self_of_prime {p k : Nat} (hp : p.Prime) (hk : k % (p - 1) = 1) (m : Nat) : m ^ k ≡ m [MOD p] := by
  have hsplit := (Nat.div_add_mod k (p - 1)).symm
  rw [hk] at hsplit
  by_cases hdvd : p ∣ m
  · have hm : m ≡ 0 [MOD p] := (Nat.modEq_zero_iff_dvd).2 hdvd
    calc m ^ k ≡ 0 ^ k [MOD p] := hm.pow k
      _ = 0 := by rw [hsplit, Nat.zero_pow (Nat.succ_pos _)]
      _ ≡ m [MOD p] := hm.symm
  · have hfermat : m ^ (p - 1) ≡ 1 [MOD p] := by
      rw [← Nat.totient_prime hp]
      exact Nat.ModEq.pow_totient ((Nat.Prime.coprime_iff_not_dvd hp).2 hdvd).symm
    calc m ^ k = (m ^ (p - 1)) ^ (k / (p - 1)) * m := by rw [← Nat.pow_mul, ← pow_succ, ← hsplit]
      _ ≡ 1 ^ (k / (p - 1)) * m [MOD p] := (hfermat.pow _).mul_right _
      _ = m := by rw [Nat.one_pow, Nat.one_mul]

/-- The CRT exponent undoes the encryption exponent modulo its prime. -/
theorem pow_mod_pow_mod_prime {p n e k : Nat} (hp : p.Prime) (hdvd : p ∣ n) (hk : e * k % (p - 1) = 1) (m : Nat) :
    (m ^ e % n) ^ k ≡ m [MOD p] :=
  calc (m ^ e % n) ^ k ≡ (m ^ e) ^ k [MOD p] := ((Nat.mod_modEq _ _).of_dvd hdvd).pow k
    _ = m ^ (e * k) := (Nat.pow_mul ..).symm
    _ ≡ m [MOD p] := pow_modEq_self_of_prime hp hk m

/-- `DP = d mod (P - 1)` inverts `E` modulo `P - 1`, which is not 1 for an odd prime (entry 16). -/
theorem mul_mod_eq_one_of_dvd {e d r l : Nat} (hr : 1 < r) (hdvd : r ∣ l) (hd : e * d % l = 1) : e * (d % r) % r = 1 := by
  rw [Nat.mul_mod_mod, ← Nat.mod_mod_of_dvd _ hdvd, hd, Nat.mod_eq_of_lt hr]

/-- Decryption by CRT undoes encryption on the integers below the modulus. -/
theorem crtDecrypt_pow_mod {p q e dp dq qinv m : Nat} (hp : p.Prime) (hq : q.Prime) (hne : p ≠ q)
    (hdp : e * dp % (p - 1) = 1) (hdq : e * dq % (q - 1) = 1) (hqinv : qinv * q ≡ 1 [MOD p]) (hm : m < p * q) :
    crtDecrypt (m ^ e % (p * q)) p q dp dq qinv = m := by
  have hmodp : crtDecrypt (m ^ e % (p * q)) p q dp dq qinv ≡ m [MOD p] :=
    (crtDecrypt_mod_p _ _ _ hp.ne_zero hq.ne_zero hqinv).trans
      (pow_mod_pow_mod_prime hp (Nat.dvd_mul_right p q) hdp m)
  have hmodq : crtDecrypt (m ^ e % (p * q)) p q dp dq qinv ≡ m [MOD q] :=
    (crtDecrypt_mod_q _ _ _ _ hp.ne_zero hq.ne_zero).trans
      (pow_mod_pow_mod_prime hq (Nat.dvd_mul_left q p) hdq m)
  have hcoprime : p.Coprime q := (Nat.coprime_primes hp hq).2 hne
  exact ((Nat.modEq_and_modEq_iff_modEq_mul hcoprime).1 ⟨hmodp, hmodq⟩).eq_of_lt_of_lt
    (crtDecrypt_lt _ _ _ _ hp.ne_zero hq.ne_zero) hm

/-! ### Minimal forms (`41_rsa.md` R101) -/

/-- Sequences of the same length are told apart by their integers. -/
theorem eq_of_bytesToNat_eq {bs cs : List Byte} (hlen : bs.length = cs.length) (h : bytesToNat bs = bytesToNat cs) :
    bs = cs := by
  induction bs generalizing cs with
  | nil => exact (List.length_eq_zero_iff.1 hlen.symm).symm
  | cons b bs ih =>
    cases cs with
    | nil => exact absurd hlen (Nat.succ_ne_zero _)
    | cons c cs =>
      have hlen' : bs.length = cs.length := Nat.succ.inj hlen
      rw [bytesToNat_cons, bytesToNat_cons, ← hlen'] at h
      have hcs : bytesToNat cs < 256 ^ bs.length := hlen' ▸ bytesToNat_lt cs
      have hquot := congrArg (· / 256 ^ bs.length) h
      have hrest := congrArg (· % 256 ^ bs.length) h
      simp only [Nat.mul_add_mod_self_right, Nat.mod_eq_of_lt (bytesToNat_lt bs), Nat.mod_eq_of_lt hcs] at hrest
      obtain rfl := ih hlen' hrest
      have hhead : b.toNat = c.toNat := Nat.eq_of_mul_eq_mul_right (Nat.pow_pos (by omega)) (Nat.add_right_cancel h)
      rw [BitVec.eq_of_toNat_eq hhead]

/-- A sequence that starts with a byte other than 0 has as many bytes as its integer needs. -/
theorem byteLength_bytesToNat_cons {b : Byte} (hb : b ≠ 0) (bs : List Byte) :
    byteLength (bytesToNat (b :: bs)) = bs.length + 1 := by
  have hpos : 1 ≤ b.toNat := Nat.pos_of_ne_zero fun h => hb (BitVec.eq_of_toNat_eq h)
  have hge : 256 ^ bs.length ≤ bytesToNat (b :: bs) := by
    rw [bytesToNat_cons]
    exact (Nat.le_mul_of_pos_left _ hpos).trans (Nat.le_add_right ..)
  have hne : bytesToNat (b :: bs) ≠ 0 := ((Nat.pow_pos (by omega)).trans_le hge).ne'
  have hle : byteLength (bytesToNat (b :: bs)) ≤ bs.length + 1 := (lt_pow_iff_byteLength_le hne _).1 (bytesToNat_lt _)
  have hgt : ¬byteLength (bytesToNat (b :: bs)) ≤ bs.length := fun h =>
    absurd ((lt_pow_iff_byteLength_le hne _).2 h) (Nat.not_lt.2 hge)
  omega

theorem natToBytes_bytesToNat {bs : List Byte} (hne : bs ≠ []) (hhead : bs.head? ≠ some 0) :
    natToBytes (bytesToNat bs) = bs := by
  cases bs with
  | nil => exact absurd rfl hne
  | cons b bs =>
    refine eq_of_bytesToNat_eq ?_ (bytesToNat_natToBytes _)
    rw [natToBytes_length, byteLength_bytesToNat_cons fun hb => hhead (by rw [hb]; rfl), List.length_cons]

/-- Where a sequence fits, so does the minimal form of its integer, given a byte for 0. -/
theorem natToBytes_bytesToNat_length_le {bs : List Byte} {len : Nat} (hlen : bs.length ≤ len) (hone : 1 ≤ len) :
    (natToBytes (bytesToNat bs)).length ≤ len := by
  rw [natToBytes_length]
  refine byteLength_le (w := 8 * bs.length) hone (by omega) ?_
  rw [Nat.pow_mul]
  exact bytesToNat_lt bs

/-- RSADEC of RSAENC's framed block recovers the plaintext's integer, for a matching key with odd primes. -/
theorem State.decryptNat_framedBlock {s : State} {d : Nat}
    (hp : s.p.toNat.Prime) (hq : s.q.toNat.Prime) (hne : s.p.toNat ≠ s.q.toNat)
    (hp2 : s.p.toNat ≠ 2) (hq2 : s.q.toNat ≠ 2) (hn : s.n.toNat = s.p.toNat * s.q.toNat)
    (hd : s.e.toNat * d % Nat.lcm (s.p.toNat - 1) (s.q.toNat - 1) = 1)
    (hdp : s.dp.toNat = d % (s.p.toNat - 1)) (hdq : s.dq.toNat = d % (s.q.toNat - 1))
    (hqinv : s.qinv.toNat * s.q.toNat % s.p.toNat = 1) (hm : bytesToNat s.plaintext < s.n.toNat)
    (hfit : 1 + (natToBytes s.encryptNat).length ≤ s.bufLen) :
    (s.framedBlock (natToBytes s.encryptNat)).decryptNat = bytesToNat s.plaintext := by
  have hnz : s.n.toNat ≠ 0 := Nat.ne_zero_of_lt hm
  have hpgt : 1 < s.p.toNat - 1 := by have := hp.two_le; omega
  have hqgt : 1 < s.q.toNat - 1 := by have := hq.two_le; omega
  have hedp : s.e.toNat * s.dp.toNat % (s.p.toNat - 1) = 1 := hdp ▸ mul_mod_eq_one_of_dvd hpgt (Nat.dvd_lcm_left ..) hd
  have hedq : s.e.toNat * s.dq.toNat % (s.q.toNat - 1) = 1 := hdq ▸ mul_mod_eq_one_of_dvd hqgt (Nat.dvd_lcm_right ..) hd
  have hinv : s.qinv.toNat * s.q.toNat ≡ 1 [MOD s.p.toNat] := hqinv.trans (Nat.mod_eq_of_lt hp.one_lt).symm
  have hcipher : bytesToNat (s.framedBlock (natToBytes s.encryptNat)).ciphertext =
      bytesToNat s.plaintext ^ s.e.toNat % (s.p.toNat * s.q.toNat) := by
    rw [s.ciphertext_framedBlock (State.natToBytes_encryptNat_length_le hnz) hfit, bytesToNat_natToBytes,
      State.encryptNat_eq hnz, hn]
    rfl
  rw [State.decryptNat, hcipher, State.framedBlock_p, State.framedBlock_q, State.framedBlock_dp, State.framedBlock_dq,
    State.framedBlock_qinv]
  exact crtDecrypt_pow_mod hp hq hne hedp hedq hinv (hn ▸ hm)

/-- Settles O27: the framed block decrypts to the plaintext's integer, whose minimal form fits where the plaintext was. -/
theorem encryptThenDecryptRoundTrip : Obligations.EncryptThenDecryptRoundTrip := by
  intro s d hp hq hne hp2 hq2 hn hd hdp hdq hqinv hm hplain hfit
  have hnz : s.n.toNat ≠ 0 := Nat.ne_zero_of_lt hm
  have henc : s.encryptNat = bytesToNat s.plaintext ^ s.e.toNat % s.n.toNat := State.encryptNat_eq hnz
  rw [← henc] at hfit
  have hdec := State.decryptNat_framedBlock hp hq hne hp2 hq2 hn hd hdp hdq hqinv hm hfit
  have hroom : (natToBytes (bytesToNat s.plaintext)).length ≤ s.bufLen :=
    natToBytes_bytesToNat_length_le ((s.memReadSeq_length 0 _).trans_le hplain) (Nat.le_of_add_right_le hfit)
  obtain ⟨t, hexec, hread, hstatus⟩ :=
    exists_exec_rsadec_readback (s := s.framedBlock (natToBytes s.encryptNat)) (by simpa using hp.ne_zero)
      (by simpa using hq.ne_zero) (by rwa [hdec, State.framedBlock_bufLen])
  rw [hdec] at hread
  rw [State.framedBlock_status] at hstatus
  exact ⟨_, t, exec_rsaenc_of_ne_zero hnz, hexec, hread,
    fun hnonempty hhead => hread.trans (natToBytes_bytesToNat hnonempty hhead), hstatus⟩

/-! ### The prime 2 (entry 16) -/

/-- A key that meets every condition of R112 with `P = 2`, and the plaintext byte 2 in a buffer of four bytes. -/
def primeTwoState : State :=
  { State.resetWith 4 with
    n := 6, e := 1, p := 2, q := 3, dp := 0, dq := 1, qinv := 1, bytePos := 1, buf := [(0, 0x02#8)] }

theorem primeTwoState_moduli : primeTwoState.n.toNat ≠ 0 ∧ primeTwoState.p.toNat ≠ 0 ∧ primeTwoState.q.toNat ≠ 0 := by
  decide +kernel

/-- Settles O28: `DP = 0` takes the ciphertext 2 to 1 modulo 2, where the plaintext is 0. -/
theorem roundTripFailsForPrimeTwo : Obligations.RoundTripFailsForPrimeTwo := by
  obtain ⟨hn, hp, hq⟩ := primeTwoState_moduli
  exact ⟨primeTwoState, _, _, by decide +kernel, by decide +kernel, by decide +kernel, by decide +kernel,
    by decide +kernel, by decide +kernel, by decide +kernel, by decide +kernel, exec_rsaenc_of_ne_zero hn,
    exec_rsadec_of_ne_zero hp hq, by decide +kernel⟩

end Sys2Proof.Machine
end
